-- ==== Sys2Proof/Word.lean ====
section
/-! DEFINITION. The word types: the 32-bit command and result word, the byte of a field element or codeword (00_scope.md R8). -/

namespace Sys2Proof

/-- A command word, `RES` and `BESTPEN`: 32 bits (30_encoding.md R60, 10_state.md R17, R18). -/
abbrev Word := BitVec 32

/-- A GF(256) element, polynomial coefficient, payload byte or codeword (00_scope.md R8). -/
abbrev Byte := BitVec 8

end Sys2Proof
end

