-- ==== Sys2Proof/Syntax.lean ====
section
/-! DEFINITION. The 32 commands of 30_encoding.md R63, one constructor per row of spec/opcode_table.json.
Register and level operands are names; a numeric operand keeps the width of its field, and WellFormed.lean holds the ranges of R66. -/

namespace Sys2Proof

/-- The polynomial registers `P[0]`, `P[1]`, `P[2]` (10_state.md R23). -/
inductive PolyReg where
  | pa
  | pb
  | pr
  deriving DecidableEq, Repr

/-- The error-correction levels (10_state.md R14); their 2-bit codes are `levelCode` of Decode.lean. -/
inductive Level where
  | m
  | l
  | h
  | q
  deriving DecidableEq, Repr

/-- The commands, in the order of 30_encoding.md R63. -/
inductive Instr where
  /-- `NOP` (49_generate.md R200). -/
  | nop
  /-- `GEXP n`, `n` the 16-bit field, read as signed (40_gf.md R85). -/
  | gexp (n : BitVec 16)
  /-- `GLOG n` (40_gf.md R86). -/
  | glog (n : Byte)
  /-- `PCLR r` (41_poly.md R93). -/
  | pclr (r : PolyReg)
  /-- `PPUSH r, v` (41_poly.md R94). -/
  | ppush (r : PolyReg) (v : Byte)
  /-- `PMUL` (41_poly.md R95). -/
  | pmul
  /-- `PMOD` (41_poly.md R96). -/
  | pmod
  /-- `RSGEN ec` (42_rs.md R102). -/
  | rsgen (ec : Byte)
  /-- `DBRST` (42_rs.md R103). -/
  | dbrst
  /-- `DBPUSH v` (42_rs.md R104). -/
  | dbpush (v : Byte)
  /-- `RSENC ec` (42_rs.md R105). -/
  | rsenc (ec : Byte)
  /-- `VSEL lvl` (43_version_select.md R112). -/
  | vsel (lvl : Level)
  /-- `SETVL lvl, v` (43_version_select.md R113). -/
  | setvl (lvl : Level) (v : Byte)
  /-- `BBRST` (44_bitbuf.md R122). -/
  | bbrst
  /-- `BBPUT n, val` (44_bitbuf.md R123). -/
  | bbput (n : Byte) (val : BitVec 16)
  /-- `BBENC` (44_bitbuf.md R124). -/
  | bbenc
  /-- `SPLIT` (45_block_split.md R138). -/
  | split
  /-- `MXRST` (46_matrix.md R146). -/
  | mxrst
  /-- `MXPAT` (46_matrix.md R151). -/
  | mxpat
  /-- `MXRSV` (46_matrix.md R156). -/
  | mxrsv
  /-- `MXMAP k` (46_matrix.md R159). -/
  | mxmap (k : Byte)
  /-- `MXFIN` (46_matrix.md R161). -/
  | mxfin
  /-- `MASKQ k, row, col` (46_matrix.md R162). -/
  | maskq (k : Byte) (row : Byte) (col : Byte)
  /-- `MXPEN` (47_mask_eval.md R182). -/
  | mxpen
  /-- `MXBEST` (47_mask_eval.md R184). -/
  | mxbest
  /-- `BCHFMT d` (48_bch.md R192). -/
  | bchfmt (d : Byte)
  /-- `BCHVER v` (48_bch.md R193). -/
  | bchver (v : Byte)
  /-- `GEN lvl` (49_generate.md R203). -/
  | gen (lvl : Level)
  /-- `ISDARK row, col` (49_generate.md R204). -/
  | isdark (row : Byte) (col : Byte)
  /-- `MODCNT` (49_generate.md R205). -/
  | modcnt
  /-- `PLRST` (49_generate.md R201). -/
  | plrst
  /-- `PLPUSH v` (49_generate.md R202). -/
  | plpush (v : Byte)
  deriving DecidableEq, Repr

end Sys2Proof
end

