-- ==== Sys2Proof/WellFormed.lean ====
section
/-! DEFINITION. The operand ranges of 30_encoding.md R66 that the types of Syntax.lean do not already hold.
A polynomial register or a level out of range has no term: Decode.lean refuses its word. -/

namespace Sys2Proof

/-- The command's operands lie in the ranges of 30_encoding.md R63. -/
def Instr.wellFormed : Instr → Bool
  | .setvl _ v => decide (1 ≤ v.toNat ∧ v.toNat ≤ 40)
  | .bbput n _ => decide (n.toNat ≤ 16)
  | .mxmap k => decide (k.toNat ≤ 7)
  | .maskq k _ _ => decide (k.toNat ≤ 7)
  | .bchfmt d => decide (d.toNat ≤ 31)
  | .bchver v => decide (v.toNat ≤ 63)
  | .nop | .gexp _ | .glog _ | .pclr _ | .ppush _ _ | .pmul | .pmod
  | .rsgen _ | .dbrst | .dbpush _ | .rsenc _ | .vsel _ | .bbrst | .bbenc | .split
  | .mxrst | .mxpat | .mxrsv | .mxfin | .mxpen | .mxbest
  | .gen _ | .isdark _ _ | .modcnt | .plrst | .plpush _ => true

end Sys2Proof
end

