-- ==== Sys2Proof/Decode.lean ====
section
/-! DEFINITION. Decoding a 32-bit command word, total and rejecting by name, and the encoder (30_encoding.md R60 to R67).
Both are written over one table, `encodingTable`, which has the rows of R63. -/

namespace Sys2Proof

/-- The four 8-bit fields of a command word (30_encoding.md R60). -/
structure Fields where
  op : Byte
  a : Byte
  b : Byte
  c : Byte
  deriving DecidableEq, Repr

/-- `op = w[31:24]`, `a = w[23:16]`, `b = w[15:8]`, `c = w[7:0]` (30_encoding.md R60). -/
def fieldsOf (w : Word) : Fields :=
  ⟨w.extractLsb' 24 8, w.extractLsb' 16 8, w.extractLsb' 8 8, w.extractLsb' 0 8⟩

/-- The word with the given fields (30_encoding.md R60). -/
def pack (f : Fields) : Word := f.op ++ f.a ++ f.b ++ f.c

/-- `imm16 = w[15:0]`: `b` and `c` read together, `b` the high byte (30_encoding.md R60). -/
def Fields.imm16 (f : Fields) : BitVec 16 := f.b ++ f.c

/-- The high and the low byte of a 16-bit operand. -/
def immHigh (v : BitVec 16) : Byte := v.extractLsb' 8 8

/-- The low byte of a 16-bit operand. -/
def immLow (v : BitVec 16) : Byte := v.extractLsb' 0 8

/-- The eight formats of 30_encoding.md R61. -/
inductive Format where
  | z
  | a
  | c
  | ac
  | i
  | ai
  | bc
  | abc
  deriving DecidableEq, Repr

/-- The format uses field `a` (30_encoding.md R61). -/
def Format.usesA : Format → Bool
  | .a | .ac | .ai | .abc => true
  | .z | .c | .i | .bc => false

/-- The format uses field `b`, alone or as the high byte of `imm16` (30_encoding.md R61). -/
def Format.usesB : Format → Bool
  | .i | .ai | .bc | .abc => true
  | .z | .a | .c | .ac => false

/-- The format uses field `c`, alone or as the low byte of `imm16` (30_encoding.md R61). -/
def Format.usesC : Format → Bool
  | .c | .ac | .i | .ai | .bc | .abc => true
  | .z | .a => false

/-- The `mask` column of 30_encoding.md R61. -/
def Format.mask : Format → Word
  | .z => 0xFFFFFFFF#32
  | .a => 0xFF00FFFF#32
  | .c => 0xFFFFFF00#32
  | .ac => 0xFF00FF00#32
  | .i => 0xFFFF0000#32
  | .ai => 0xFF000000#32
  | .bc => 0xFFFF0000#32
  | .abc => 0xFF000000#32

/-- Every field the format does not use is zero (30_encoding.md R64). -/
def Format.unusedZero (fmt : Format) (f : Fields) : Bool :=
  (fmt.usesA || f.a == 0#8) && (fmt.usesB || f.b == 0#8) && (fmt.usesC || f.c == 0#8)

/-- One row of the command map of 30_encoding.md R63. -/
structure EncodingRow where
  op : Byte
  mnemonic : String
  format : Format
  deriving DecidableEq, Repr

/-- `match = op << 24` (30_encoding.md R61). -/
def EncodingRow.matchWord (r : EncodingRow) : Word := r.op ++ 0#24

/-- The rows of units 0 to 6 (30_encoding.md R63). -/
def encodingTableLow : List EncodingRow :=
  [⟨0x00#8, "NOP", .z⟩,
   ⟨0x10#8, "GEXP", .i⟩,
   ⟨0x11#8, "GLOG", .c⟩,
   ⟨0x20#8, "PCLR", .a⟩,
   ⟨0x21#8, "PPUSH", .ac⟩,
   ⟨0x22#8, "PMUL", .z⟩,
   ⟨0x23#8, "PMOD", .z⟩,
   ⟨0x30#8, "RSGEN", .c⟩,
   ⟨0x31#8, "DBRST", .z⟩,
   ⟨0x32#8, "DBPUSH", .c⟩,
   ⟨0x33#8, "RSENC", .c⟩,
   ⟨0x40#8, "VSEL", .a⟩,
   ⟨0x41#8, "SETVL", .ac⟩,
   ⟨0x50#8, "BBRST", .z⟩,
   ⟨0x51#8, "BBPUT", .ai⟩,
   ⟨0x52#8, "BBENC", .z⟩,
   ⟨0x60#8, "SPLIT", .z⟩]

/-- The rows of units 7 to A (30_encoding.md R63). -/
def encodingTableHigh : List EncodingRow :=
  [⟨0x70#8, "MXRST", .z⟩,
   ⟨0x71#8, "MXPAT", .z⟩,
   ⟨0x72#8, "MXRSV", .z⟩,
   ⟨0x73#8, "MXMAP", .c⟩,
   ⟨0x74#8, "MXFIN", .z⟩,
   ⟨0x75#8, "MASKQ", .abc⟩,
   ⟨0x80#8, "MXPEN", .z⟩,
   ⟨0x81#8, "MXBEST", .z⟩,
   ⟨0x90#8, "BCHFMT", .c⟩,
   ⟨0x91#8, "BCHVER", .c⟩,
   ⟨0xA0#8, "GEN", .a⟩,
   ⟨0xA1#8, "ISDARK", .bc⟩,
   ⟨0xA2#8, "MODCNT", .z⟩,
   ⟨0xA3#8, "PLRST", .z⟩,
   ⟨0xA4#8, "PLPUSH", .c⟩]

/-- The complete command map of 30_encoding.md R63. -/
def encodingTable : List EncodingRow := encodingTableLow ++ encodingTableHigh

/-- The row an `op` selects, if the map defines it (30_encoding.md R65). -/
def rowOf (op : Byte) : Option EncodingRow := encodingTable.find? (fun r => r.op == op)

/-- `LEVEL_CODE`: M = 0, L = 1, H = 2, Q = 3 (10_state.md R14; 43_version_select.md R112). -/
def levelCode : Level → BitVec 2
  | .m => 0#2
  | .l => 1#2
  | .h => 2#2
  | .q => 3#2

/-- The level an operand names, or none where it exceeds 3 (30_encoding.md R66). -/
def levelOfByte (v : Byte) : Option Level :=
  match v.toNat with
  | 0 => some .m
  | 1 => some .l
  | 2 => some .h
  | 3 => some .q
  | _ => none

/-- A level as the operand field `a`. -/
def levelByte (lvl : Level) : Byte := (levelCode lvl).setWidth 8

/-- The polynomial register's number: `PA` = 0, `PB` = 1, `PR` = 2 (10_state.md R23). -/
def polyRegByte : PolyReg → Byte
  | .pa => 0#8
  | .pb => 1#8
  | .pr => 2#8

/-- The polynomial register an operand names, or none where it exceeds 2 (30_encoding.md R66). -/
def polyRegOfByte (v : Byte) : Option PolyReg :=
  match v.toNat with
  | 0 => some .pa
  | 1 => some .pb
  | 2 => some .pr
  | _ => none

/-- Why a word is no command (30_encoding.md R64, R65, R66). All three report `IllegalCommand`. -/
inductive DecodeError where
  /-- The `op` is not in the map (R65). -/
  | undefinedOp
  /-- A field the format does not use is not zero (R64). -/
  | nonzeroUnusedField
  /-- An operand lies outside its range (R66). -/
  | operandOutOfRange
  deriving DecidableEq, Repr

/-- The command an `op` with its operand fields names, before the range checks of WellFormed.lean;
none where a register or level number names nothing (30_encoding.md R62, R63, R66). -/
def readOperands (f : Fields) : Option Instr :=
  match f.op.toNat with
  | 0x00 => some .nop
  | 0x10 => some (.gexp f.imm16)
  | 0x11 => some (.glog f.c)
  | 0x20 => (polyRegOfByte f.a).map .pclr
  | 0x21 => (polyRegOfByte f.a).map (fun r => .ppush r f.c)
  | 0x22 => some .pmul
  | 0x23 => some .pmod
  | 0x30 => some (.rsgen f.c)
  | 0x31 => some .dbrst
  | 0x32 => some (.dbpush f.c)
  | 0x33 => some (.rsenc f.c)
  | 0x40 => (levelOfByte f.a).map .vsel
  | 0x41 => (levelOfByte f.a).map (fun lvl => .setvl lvl f.c)
  | 0x50 => some .bbrst
  | 0x51 => some (.bbput f.a f.imm16)
  | 0x52 => some .bbenc
  | 0x60 => some .split
  | 0x70 => some .mxrst
  | 0x71 => some .mxpat
  | 0x72 => some .mxrsv
  | 0x73 => some (.mxmap f.c)
  | 0x74 => some .mxfin
  | 0x75 => some (.maskq f.a f.b f.c)
  | 0x80 => some .mxpen
  | 0x81 => some .mxbest
  | 0x90 => some (.bchfmt f.c)
  | 0x91 => some (.bchver f.c)
  | 0xA0 => (levelOfByte f.a).map .gen
  | 0xA1 => some (.isdark f.b f.c)
  | 0xA2 => some .modcnt
  | 0xA3 => some .plrst
  | 0xA4 => some (.plpush f.c)
  | _ => none

/-- Decoding is total: a word is exactly one command with in-range operands, or illegal (30_encoding.md R67). -/
def decode (w : Word) : Except DecodeError Instr :=
  match rowOf (fieldsOf w).op with
  | none => .error .undefinedOp
  | some row =>
    if row.format.unusedZero (fieldsOf w) then
      match readOperands (fieldsOf w) with
      | none => .error .operandOutOfRange
      | some i => if i.wellFormed then .ok i else .error .operandOutOfRange
    else .error .nonzeroUnusedField

/-- The operation code of a command (30_encoding.md R63). -/
def opcodeOf : Instr → Byte
  | .nop => 0x00#8
  | .gexp _ => 0x10#8
  | .glog _ => 0x11#8
  | .pclr _ => 0x20#8
  | .ppush _ _ => 0x21#8
  | .pmul => 0x22#8
  | .pmod => 0x23#8
  | .rsgen _ => 0x30#8
  | .dbrst => 0x31#8
  | .dbpush _ => 0x32#8
  | .rsenc _ => 0x33#8
  | .vsel _ => 0x40#8
  | .setvl _ _ => 0x41#8
  | .bbrst => 0x50#8
  | .bbput _ _ => 0x51#8
  | .bbenc => 0x52#8
  | .split => 0x60#8
  | .mxrst => 0x70#8
  | .mxpat => 0x71#8
  | .mxrsv => 0x72#8
  | .mxmap _ => 0x73#8
  | .mxfin => 0x74#8
  | .maskq _ _ _ => 0x75#8
  | .mxpen => 0x80#8
  | .mxbest => 0x81#8
  | .bchfmt _ => 0x90#8
  | .bchver _ => 0x91#8
  | .gen _ => 0xA0#8
  | .isdark _ _ => 0xA1#8
  | .modcnt => 0xA2#8
  | .plrst => 0xA3#8
  | .plpush _ => 0xA4#8

/-- The fields of a command's word; a field its format does not use is zero (30_encoding.md R61, R63). -/
def fieldsFor (i : Instr) : Fields :=
  match i with
  | .gexp n => ⟨opcodeOf i, 0#8, immHigh n, immLow n⟩
  | .glog n => ⟨opcodeOf i, 0#8, 0#8, n⟩
  | .pclr r => ⟨opcodeOf i, polyRegByte r, 0#8, 0#8⟩
  | .ppush r v => ⟨opcodeOf i, polyRegByte r, 0#8, v⟩
  | .rsgen ec => ⟨opcodeOf i, 0#8, 0#8, ec⟩
  | .dbpush v => ⟨opcodeOf i, 0#8, 0#8, v⟩
  | .rsenc ec => ⟨opcodeOf i, 0#8, 0#8, ec⟩
  | .vsel lvl => ⟨opcodeOf i, levelByte lvl, 0#8, 0#8⟩
  | .setvl lvl v => ⟨opcodeOf i, levelByte lvl, 0#8, v⟩
  | .bbput n v => ⟨opcodeOf i, n, immHigh v, immLow v⟩
  | .mxmap k => ⟨opcodeOf i, 0#8, 0#8, k⟩
  | .maskq k row col => ⟨opcodeOf i, k, row, col⟩
  | .bchfmt d => ⟨opcodeOf i, 0#8, 0#8, d⟩
  | .bchver v => ⟨opcodeOf i, 0#8, 0#8, v⟩
  | .gen lvl => ⟨opcodeOf i, levelByte lvl, 0#8, 0#8⟩
  | .isdark row col => ⟨opcodeOf i, 0#8, row, col⟩
  | .plpush v => ⟨opcodeOf i, 0#8, 0#8, v⟩
  | .nop | .pmul | .pmod | .dbrst | .bbrst | .bbenc | .split | .mxrst | .mxpat | .mxrsv | .mxfin
  | .mxpen | .mxbest | .modcnt | .plrst => ⟨opcodeOf i, 0#8, 0#8, 0#8⟩

/-- The command word of an instruction (30_encoding.md R60 to R63). -/
def encode (i : Instr) : Word := pack (fieldsFor i)

/-- The `nbits` low bits of `w` as a command word, the bits above them zero. -/
def tableWord (nbits w : Nat) : Word := BitVec.ofNat 32 (w % 2 ^ nbits)

/-- What the decoder reads from a word numbered as spec/opcode_table.json numbers it. -/
def decodeTableWord (nbits w : Nat) : Option Instr := (decode (tableWord nbits w)).toOption

end Sys2Proof
end

