-- ==== Sys2Proof/Config.lean ====
section
/-! DEFINITION. The parameters of 00_scope.md R6 that are arguments of the model.
Only `INTERLEAVE` reaches a rule; `BUSMAP` is read by none and is left out (log entry 11).
The parameters with a fixed value are the tables and constants of Machine/Tables.lean. -/

namespace Sys2Proof

/-- The order of the final codeword sequence of a symbol with several blocks (45_block_split.md R137). -/
inductive Interleave where
  | sequential
  | roundRobin
  deriving DecidableEq, Repr

/-- The OPEN parameters, constant for one core (10_state.md R11).
DESIGN CHOICE, log entry 1: they are carried by the state, so that one `step` serves every value of them. -/
structure Config where
  interleave : Interleave
  deriving DecidableEq, Repr

/-- The default of 00_scope.md R6: `INTERLEAVE = SEQUENTIAL`. -/
def Config.default : Config := ⟨.sequential⟩

end Sys2Proof
end

