-- ==== Sys2Proof/Machine/State.lean ====
section
/-! DEFINITION. The state of the QRGEN core (10_state.md R13 to R28), the reasons a step can stop (none is ever used), and reset (R33). -/

namespace Sys2Proof.Machine

/-- The matrix builder's states, `STAGE` (10_state.md R19). The values 6 and 7 are never written and have no constructor (log entry 5). -/
inductive Stage where
  /-- 0: no matrix. -/
  | none
  /-- 1: N x N cells, all unset. -/
  | empty
  /-- 2: structural patterns placed. -/
  | patterns
  /-- 3: metadata cells hold placeholders. -/
  | reserved
  /-- 4: data mapped, metadata cells still hold placeholders. -/
  | mapped
  /-- 5: the finished symbol. -/
  | final
  deriving DecidableEq, Repr

/-- The six errors a command can report (60_exceptions.md R210). -/
inductive ErrorCode where
  /-- `0x01` (R217). -/
  | capacityExceeded
  /-- `0x02` (R218). -/
  | overflow
  /-- `0x03` (R219). -/
  | malformedMatrixAccess
  /-- `0x04` (R213). -/
  | illegalCommand
  /-- `0x80`, fatal (R215). -/
  | glogZero
  /-- `0x81`, fatal, unreachable (R216; log entry 6). -/
  | invalidLookup
  deriving DecidableEq, Repr

/-- The content of `ERR`: the outcome of the last accepted command (10_state.md R20, 60_exceptions.md R210). -/
inductive Status where
  /-- `0x00`. -/
  | ok
  /-- The code of an error. -/
  | failed (e : ErrorCode)
  deriving DecidableEq, Repr

/-- A cell of the module matrix (10_state.md R28). -/
inductive Cell where
  /-- 0: not yet assigned. -/
  | unset
  /-- 1: a white module. -/
  | light
  /-- 2: a black module. -/
  | dark
  deriving DecidableEq, Repr

/-- A polynomial: coefficients, highest degree first (41_poly.md R90). -/
abbrev Poly := List Byte

/-- The module matrix as a list of rows, row 0 the top, column 0 the left (20_memory.md R48). -/
abbrev Grid := List (List Cell)

/-- What the host can do to the core (10_state.md R32): issue a command word, or assert reset. -/
inductive HostEvent where
  | command (w : Word)
  | reset
  deriving DecidableEq, Repr

/-- The whole state of the core, and the model's own fields `cfg` and `port`. -/
structure State where
  /-- `VER` (R13). -/
  ver : BitVec 6
  /-- `ECL` (R14). -/
  ecl : Level
  /-- `MASK` (R15). -/
  mask : BitVec 3
  /-- `N` (R16). DESIGN CHOICE, log entry 13: 8 bits as R16 says, although 00_scope.md R8 speaks of 32-bit registers for module counts. -/
  n : BitVec 8
  /-- `BESTPEN` (R17). -/
  bestpen : Word
  /-- `RES` (R18). -/
  res : Word
  /-- `STAGE` (R19). -/
  stage : Stage
  /-- `ERR` (R20). -/
  err : Status
  /-- `FAULT` (R21). -/
  fault : Bool
  /-- `PAYLOAD`, `PLEN` its length (R22). -/
  payload : List Byte
  /-- `P[0]` (R23). -/
  pa : Poly
  /-- `P[1]` (R23). -/
  pb : Poly
  /-- `P[2]` (R23). -/
  pr : Poly
  /-- `DB`, `DBLEN` its length (R24). -/
  db : List Byte
  /-- `ECB`, `ECLEN` its length (R25). -/
  ecb : List Byte
  /-- `BB`, `BBLEN` its length; true is the bit 1 (R26). -/
  bb : List Bool
  /-- `CW`, `CWLEN` its length (R27). -/
  cw : List Byte
  /-- `MX` (R28). -/
  mx : Grid
  /-- The model's own: the OPEN parameters, written by nothing (00_scope.md R6; log entry 1). -/
  cfg : Config
  /-- The model's own: what the host presents next, oldest first (log entry 2). -/
  port : List HostEvent
  deriving DecidableEq, Repr

/-- The reasons the machine itself stops. The spec has none: every error of 60_exceptions.md is a next state
(R212, R214), and a core with nothing to do holds its state (R226). So nothing raises a `Fault`. -/
inductive Fault : Type where
  deriving DecidableEq, Repr

/-- The reasons a step has no meaning. -/
inductive Refusal where
  /-- An instruction without a meaning, raised by an arm of `exec` alone; safe. No arm raises it. -/
  | notModelled (mnemonic : String)
  deriving DecidableEq, Repr

/-- What a step answers. -/
abbrev Result := Host.Outcome State Fault Refusal

/-- The state when reset ends (10_state.md R33, 70_reset_and_hazards.md R240). -/
def State.reset : State where
  ver := 0#6
  ecl := .m
  mask := 0#3
  n := 0#8
  bestpen := 0#32
  res := 0#32
  stage := .none
  err := .ok
  fault := false
  payload := []
  pa := []
  pb := []
  pr := []
  db := []
  ecb := []
  bb := []
  cw := []
  mx := []
  cfg := .default
  port := []

end Sys2Proof.Machine
end

