-- ==== Sys2Proof/Machine/Flags.lean ====
section
/-! DEFINITION. The status the core reports: the numbers of `ERR`, `STAGE` and a cell, which errors are fatal, and how a result fills `RES`.
The core has no condition-code flags (10_state.md R12). -/

namespace Sys2Proof.Machine

/-- The code of an error (60_exceptions.md R210). -/
def errorCode : ErrorCode → BitVec 8
  | .capacityExceeded => 0x01#8
  | .overflow => 0x02#8
  | .malformedMatrixAccess => 0x03#8
  | .illegalCommand => 0x04#8
  | .glogZero => 0x80#8
  | .invalidLookup => 0x81#8

/-- The value of `ERR` (60_exceptions.md R210). -/
def statusCode : Status → BitVec 8
  | .ok => 0x00#8
  | .failed e => errorCode e

/-- The fatal errors (60_exceptions.md R210, R214). -/
def isFatal : ErrorCode → Bool
  | .glogZero | .invalidLookup => true
  | .capacityExceeded | .overflow | .malformedMatrixAccess | .illegalCommand => false

/-- The value of `STAGE` (10_state.md R19). -/
def stageCode : Stage → BitVec 3
  | .none => 0#3
  | .empty => 1#3
  | .patterns => 2#3
  | .reserved => 3#3
  | .mapped => 4#3
  | .final => 5#3

/-- The number of a cell (10_state.md R28). -/
def cellCode : Cell → BitVec 2
  | .unset => 0#2
  | .light => 1#2
  | .dark => 2#2

/-- A number as the 32-bit result (10_state.md R18). -/
def resOfNat (v : Nat) : Word := BitVec.ofNat 32 v

/-- A yes or no as the 32-bit result: 1 or 0 (46_matrix.md R162, 49_generate.md R204). -/
def resOfBool (b : Bool) : Word := if b then 1#32 else 0#32

/-- The cell a module value gives: 1 is dark, 0 is light (00_scope.md R9). -/
def cellOfBool (b : Bool) : Cell := if b then .dark else .light

end Sys2Proof.Machine
end

