-- ==== Sys2Proof/Machine/Ops.lean ====
section
/-! DEFINITION. The operations every command shares: raising an error, running an accepted command, the polynomial registers,
the append buffers, the cells of the matrix, and what the core does with a host event. -/

namespace Sys2Proof.Machine

/-! ## Errors and the outcome of a command -/

/-- `raise <Error>`: taking an error is exactly the write of `ERR`, and of `FAULT` for a fatal one
(60_exceptions.md R212, R214, R222). There is no handler, nothing is saved and there is no return (R223). -/
def raise (e : ErrorCode) (s : State) : State :=
  { s with err := .failed e, fault := s.fault || isFatal e }

/-- A successful command writes `ERR <- 0` (10_state.md R20). -/
def succeed (s : State) : State := { s with err := .ok }

/-- A command presented in state `s`: discarded while `FAULT = 1` (60_exceptions.md R214, R220), else it runs to its
one outcome, the effect `body` on success, and nothing but the raise on an error (R212, R214). -/
def command (s : State) (body : Except ErrorCode State) : Result :=
  if s.fault then .next s
  else
    match body with
    | .ok t => .next (succeed t)
    | .error e => .next (raise e s)

/-- `RES <- v` (10_state.md R18). -/
def setRes (v : Word) (s : State) : State := { s with res := v }

/-! ## Polynomial registers and buffers -/

/-- `P[r]` (10_state.md R23). -/
def readPoly (r : PolyReg) (s : State) : Poly :=
  match r with
  | .pa => s.pa
  | .pb => s.pb
  | .pr => s.pr

/-- `P[r] <- p` (10_state.md R23). -/
def writePoly (r : PolyReg) (p : Poly) (s : State) : State :=
  match r with
  | .pa => { s with pa := p }
  | .pb => { s with pb := p }
  | .pr => { s with pr := p }

/-- Appending `extra` to a buffer, refused where the length counter would exceed `LEN_MAX`
(60_exceptions.md R213 item 5). -/
def appendTo {α : Type} (buf extra : List α) : Except ErrorCode (List α) :=
  if buf.length + extra.length > lenMax then .error .illegalCommand else .ok (buf ++ extra)

/-- `zeros(k)` (00_scope.md R7). -/
def zeros (k : Nat) : List Byte := List.replicate k 0#8

/-! ## The matrix -/

/-- `4×v+17` (46_matrix.md R146). -/
def moduleCount (v : BitVec 6) : BitVec 8 := BitVec.ofNat 8 (4 * v.toNat + 17)

/-- `n × n` cells, all unset (46_matrix.md R146). -/
def unsetGrid (n : Nat) : Grid := List.replicate n (List.replicate n .unset)

/-- The cell at (row, col); coordinates outside the grid name no cell (20_memory.md R48) and no command forms one in a
state that a run reaches (log entry 7). -/
def getCell (g : Grid) (row col : Nat) : Cell := ((g[row]?).bind (fun cells => cells[col]?)).getD .unset

/-- `MX[row][col] <- v`. -/
def setCell (g : Grid) (row col : Nat) (v : Cell) : Grid := g.modify row (fun cells => cells.set col v)

/-- A list of cell writes, done in order. -/
def setCells (g : Grid) (writes : List (Nat × Nat × Cell)) : Grid :=
  writes.foldl (fun g' w => setCell g' w.1 w.2.1 w.2.2) g

/-- The matrix is discarded: with `N = 0` there are no cells any more (43_version_select.md R112, R113; log entry 4). -/
def discardMatrix (s : State) : State := { s with stage := .none, n := 0#8, mx := [] }

/-! ## Host events -/

/-- A command word the host presents. While `FAULT = 1` it is discarded whatever it is; then decoding decides, and a word
that is no command raises `IllegalCommand` (60_exceptions.md R214, R220, R213 items 1 to 3). -/
def acceptWord (run : Instr → State → Result) (w : Word) (s : State) : Result :=
  if s.fault then .next s
  else
    match decode w with
    | .ok i => run i s
    | .error _ => .next (raise .illegalCommand s)

/-- The host asserts reset: all of the core's state takes its reset value (70_reset_and_hazards.md R240).
The parameters and what the host will present next are not the core's state. -/
def assertReset (s : State) : State := { State.reset with cfg := s.cfg, port := s.port }

/-- The oldest event is taken off the port. -/
def popPort (rest : List HostEvent) (s : State) : State := { s with port := rest }

/-- One step: the oldest host event, handled to completion (10_state.md R10); with none presented the core is idle and
holds its state (60_exceptions.md R226). -/
def hostStep (run : Instr → State → Result) (s : State) : Result :=
  match s.port with
  | [] => .next s
  | .command w :: rest => acceptWord run w (popPort rest s)
  | .reset :: rest => .next (assertReset (popPort rest s))

/-- The host presents `w` as its very next command. -/
def presentWord (w : Word) (s : State) : State := { s with port := .command w :: s.port }

end Sys2Proof.Machine
end

