-- ==== Sys2Proof/Machine/Operands.lean ====
section
/-! DEFINITION. How an operand field becomes the value a rule works on (30_encoding.md R62), with the operand ranges of R66 where the
field is wider than the range: a command whose operand is out of range raises `IllegalCommand` and does nothing (60_exceptions.md R213 item 3). -/

namespace Sys2Proof.Machine

/-- `sext_16(imm16)`, the operand of `GEXP` (30_encoding.md R62). -/
def signedImm (v : BitVec 16) : Int := v.toInt

/-- `zext_16(imm16)`, the operand of `BBPUT` (30_encoding.md R62). -/
def unsignedImm (v : BitVec 16) : Nat := v.toNat

/-- A mask index, 0..7 (30_encoding.md R66: `MXMAP`, `MASKQ`). -/
def maskOperand (k : Byte) : Except ErrorCode (BitVec 3) :=
  if k.toNat ≤ 7 then .ok (k.setWidth 3) else .error .illegalCommand

/-- A version, 1..40 (30_encoding.md R66: `SETVL`). -/
def versionOperand (v : Byte) : Except ErrorCode (BitVec 6) :=
  if 1 ≤ v.toNat ∧ v.toNat ≤ 40 then .ok (v.setWidth 6) else .error .illegalCommand

/-- A bit count, 0..16 (30_encoding.md R66: `BBPUT`). -/
def bitCountOperand (n : Byte) : Except ErrorCode Nat :=
  if n.toNat ≤ 16 then .ok n.toNat else .error .illegalCommand

/-- The data of a format word, 0..31 (30_encoding.md R66: `BCHFMT`). -/
def formatOperand (d : Byte) : Except ErrorCode (BitVec 5) :=
  if d.toNat ≤ 31 then .ok (d.setWidth 5) else .error .illegalCommand

/-- The data of a version word, 0..63 (30_encoding.md R66: `BCHVER`). -/
def versionWordOperand (v : Byte) : Except ErrorCode (BitVec 6) :=
  if v.toNat ≤ 63 then .ok (v.setWidth 6) else .error .illegalCommand

/-- The command needs a selected version: `VER = 0` raises `IllegalCommand` (60_exceptions.md R213 item 4). -/
def requireVersion (s : State) : Except ErrorCode Unit :=
  if s.ver = 0#6 then .error .illegalCommand else .ok ()

/-- The command is allowed in the given stages only (46_matrix.md R145). -/
def requireStage (allowed : List Stage) (s : State) : Except ErrorCode Unit :=
  if s.stage ∈ allowed then .ok () else .error .illegalCommand

end Sys2Proof.Machine
end

