-- ==== Sys2Proof/Machine/Bch.lean ====
section
/-! DEFINITION. The BCH encoders of the format and version words and the commands `BCHFMT`, `BCHVER` (48_bch.md). -/

namespace Sys2Proof.Machine

/-- `bitlen(v)` (00_scope.md R7). -/
def bitLength (v : Nat) : Nat := if v = 0 then 0 else Nat.log2 v + 1

/-- While `bitlen(r)` is at least that of the generator, the generator shifted under its top bit is XORed in;
`fuel` bounds the iterations, each of which shortens `r` (48_bch.md R190, R191; log entry 9). -/
def bchRemainder (gen : Nat) : Nat → Nat → Nat
  | 0, r => r
  | fuel + 1, r =>
    if bitLength r ≥ bitLength gen then bchRemainder gen fuel (r ^^^ (gen <<< (bitLength r - bitLength gen))) else r

/-- `BchFormat(d)` (48_bch.md R190). -/
def bchFormat (d : BitVec 5) : BitVec 15 :=
  BitVec.ofNat 15 (((d.toNat <<< 10) ||| bchRemainder g15 15 (d.toNat <<< 10)) ^^^ g15Mask)

/-- `BchVersion(v)` (48_bch.md R191). -/
def bchVersion (v : BitVec 6) : BitVec 18 :=
  BitVec.ofNat 18 ((v.toNat <<< 12) ||| bchRemainder g18 18 (v.toNat <<< 12))

/-- `(lvl << 3) | k`, the data of the format word (46_matrix.md R160). -/
def formatData (lvl : Level) (k : BitVec 3) : BitVec 5 := levelCode lvl ++ k

/-- `BCHFMT d` (48_bch.md R192). -/
def execBchfmt (d : Byte) (s : State) : Result :=
  command s (do
    let data ← formatOperand d
    pure (setRes ((bchFormat data).setWidth 32) s))

/-- `BCHVER v` (48_bch.md R193). -/
def execBchver (v : Byte) (s : State) : Result :=
  command s (do
    let data ← versionWordOperand v
    pure (setRes ((bchVersion data).setWidth 32) s))

end Sys2Proof.Machine
end

