-- ==== Sys2Proof/Machine/Galois.lean ====
section
/-! DEFINITION. The Galois-field lookups and the commands `GEXP`, `GLOG` (40_gf.md). -/

namespace Sys2Proof.Machine

/-- `Gexp(n)` for any integer: `EXP[r]`, `r` in 0..254 with `n - r` a multiple of 255 (40_gf.md R82). -/
def gexp (n : Int) : Byte := BitVec.ofNat 8 ((rowsEntry expRows (n % 255).toNat).getD 0)

/-- `Glog(n)`: `LOG[n]`, and `GlogZero` for 0 (40_gf.md R83). -/
def glog (n : Byte) : Except ErrorCode Nat :=
  if n.toNat < 1 then .error .glogZero else .ok ((rowsEntry logRows (n.toNat - 1)).getD 0)

/-- `GfMul(x, y)` by the table route, the only one the hardware has: a zero factor faults (40_gf.md R84, R87). -/
def gfMul (x y : Byte) : Except ErrorCode Byte := do
  let lx ← glog x
  let ly ← glog y
  pure (gexp ((lx : Int) + (ly : Int)))

/-- `GEXP n` (40_gf.md R85). -/
def execGexp (n : BitVec 16) (s : State) : Result :=
  command s (.ok (setRes ((gexp (signedImm n)).setWidth 32) s))

/-- `GLOG n` (40_gf.md R86). -/
def execGlog (n : Byte) (s : State) : Result :=
  command s (do
    let l ← glog n
    pure (setRes (resOfNat l) s))

end Sys2Proof.Machine
end

