-- ==== Sys2Proof/Machine/Polynomial.lean ====
section
/-! DEFINITION. The polynomial engine and the commands `PCLR`, `PPUSH`, `PMUL`, `PMOD` (41_poly.md). -/

namespace Sys2Proof.Machine

/-- `Strip(s)`: leading zeros removed (41_poly.md R90). -/
def strip : List Byte → Poly
  | [] => []
  | x :: xs => if x = 0#8 then strip xs else x :: xs

/-- `row` XORed into the leading terms of `ys`. -/
def xorLead : List Byte → List Byte → List Byte
  | [], ys => ys
  | _ :: _, [] => []
  | x :: xs, y :: ys => (x ^^^ y) :: xorLead xs ys

/-- The coefficients `R` of the product before `Strip`, for a non-empty `B`: the pairs (i, j) of the first coefficient of `A`
go to positions 0.., those of the rest one position further on (41_poly.md R91). -/
def mulRows : List Byte → List Byte → Except ErrorCode (List Byte)
  | [], b => .ok (zeros (b.length - 1))
  | x :: xs, b => do
    let row ← b.mapM (gfMul x)
    let rest ← mulRows xs b
    pure (xorLead row (0#8 :: rest))

/-- `PolyMul(A, B)` (41_poly.md R91). -/
def polyMul (a b : Poly) : Except ErrorCode Poly :=
  if a.isEmpty || b.isEmpty then .ok []
  else do
    let r ← mulRows a b
    pure (strip r)

/-- `Lead(P)`: the leading coefficient, 0 for the zero polynomial (41_poly.md R92). -/
def lead (p : Poly) : Byte := p.headD 0#8

/-- `Gexp(Glog(b) + ratio)` for a coefficient of the divisor (41_poly.md R92). -/
def scaleTerm (ratio : Int) (b : Byte) : Except ErrorCode Byte := do
  let lb ← glog b
  pure (gexp ((lb : Int) + ratio))

/-- One iteration of the division loop (41_poly.md R92). -/
def modStep (a b : Poly) : Except ErrorCode Poly := do
  let la ← glog (lead a)
  let lb ← glog (lead b)
  let scaled ← b.mapM (scaleTerm ((la : Int) - (lb : Int)))
  pure (strip (xorLead scaled a))

/-- The division loop, `fuel` bounding its iterations (41_poly.md R92; log entry 9). -/
def modLoop : Nat → Poly → Poly → Except ErrorCode Poly
  | 0, a, _ => .ok a
  | fuel + 1, a, b =>
    if a.length < b.length then .ok a
    else do
      let a' ← modStep a b
      modLoop fuel a' b

/-- `PolyMod(A, B)` (41_poly.md R92): at most `len(A) - len(B) + 1` iterations, and a zero divisor faults in the first. -/
def polyMod (a b : Poly) : Except ErrorCode Poly := modLoop (a.length + 1) a b

/-- `PCLR r` (41_poly.md R93). -/
def execPclr (r : PolyReg) (s : State) : Result := command s (.ok (writePoly r [] s))

/-- `PPUSH r, v` (41_poly.md R94). -/
def execPpush (r : PolyReg) (v : Byte) (s : State) : Result :=
  command s (do
    let p ← appendTo (readPoly r s) [v]
    pure (writePoly r (strip p) s))

/-- `PMUL` (41_poly.md R95). -/
def execPmul (s : State) : Result :=
  command s (do
    if s.pa.length > 0 ∧ s.pb.length > 0 ∧ s.pa.length + s.pb.length - 1 > lenMax then
      throw .illegalCommand
    let p ← polyMul s.pa s.pb
    pure (writePoly .pr p s))

/-- `PMOD` (41_poly.md R96). -/
def execPmod (s : State) : Result :=
  command s (do
    let p ← polyMod s.pa s.pb
    pure (writePoly .pr p s))

end Sys2Proof.Machine
end

