-- ==== Sys2Proof/Machine/ReedSolomon.lean ====
section
/-! DEFINITION. The Reed-Solomon encoder, the lookups of `RS_BLOCK_TABLE`, and the commands `RSGEN`, `DBRST`, `DBPUSH`, `RSENC` (42_rs.md). -/

namespace Sys2Proof.Machine

/-- `Generator(ec)`: 1 times (x + Gexp(i)) for i = 0..ec-1 (42_rs.md R100). -/
def generator : Nat → Except ErrorCode Poly
  | 0 => .ok [1#8]
  | ec + 1 => do
    let g ← generator ec
    polyMul g [1#8, gexp (ec : Int)]

/-- `RsEncode(d, ec)`: the data times x^ec modulo the generator, the zeros that `Strip` removed restored at the front
(42_rs.md R101; 90_conflicts.md C3, C4). -/
def rsEncode (d : List Byte) (ec : Nat) : Except ErrorCode (List Byte) := do
  let g ← generator ec
  let rem ← polyMod (strip (d ++ zeros ec)) g
  pure (zeros (ec - rem.length) ++ rem)

/-- The groups of a version and level; a version outside 1..40 is `InvalidLookup` (42_rs.md R106, 60_exceptions.md R216; log entry 6). -/
def blockGroups (v : Nat) (lvl : Level) : Except ErrorCode (List BlockGroup) :=
  if v = 0 then .error .invalidLookup
  else
    match rsBlockTable[v - 1]? with
    | none => .error .invalidLookup
    | some row =>
      match lvl with
      | .l => .ok row.l
      | .m => .ok row.m
      | .q => .ok row.q
      | .h => .ok row.h

/-- One (total, data) pair of `Blocks(v, lvl)` (42_rs.md R106). -/
structure Block where
  total : Nat
  data : Nat
  deriving DecidableEq, Repr

/-- `Blocks(v, lvl)`: group 1's pair count1 times, then group 2's count2 times (42_rs.md R106). -/
def blocks (v : Nat) (lvl : Level) : Except ErrorCode (List Block) := do
  let groups ← blockGroups v lvl
  pure (groups.flatMap (fun g => List.replicate g.count ⟨g.total, g.data⟩))

/-- `DataCw(v, lvl)` (42_rs.md R106). -/
def dataCw (v : Nat) (lvl : Level) : Except ErrorCode Nat := do
  let bs ← blocks v lvl
  pure (bs.map Block.data).sum

/-- `TotalCw(v, lvl)` (42_rs.md R106). -/
def totalCw (v : Nat) (lvl : Level) : Except ErrorCode Nat := do
  let bs ← blocks v lvl
  pure (bs.map Block.total).sum

/-- `RSGEN ec` (42_rs.md R102). -/
def execRsgen (ec : Byte) (s : State) : Result :=
  command s (do
    let g ← generator ec.toNat
    pure (writePoly .pr g s))

/-- `DBRST` (42_rs.md R103). -/
def execDbrst (s : State) : Result := command s (.ok { s with db := [] })

/-- `DBPUSH v` (42_rs.md R104). -/
def execDbpush (v : Byte) (s : State) : Result :=
  command s (do
    let db ← appendTo s.db [v]
    pure { s with db := db })

/-- `RSENC ec` (42_rs.md R105). -/
def execRsenc (ec : Byte) (s : State) : Result :=
  command s (do
    if s.db.length + ec.toNat > lenMax then throw .illegalCommand
    let e ← rsEncode s.db ec.toNat
    pure { s with ecb := e })

end Sys2Proof.Machine
end

