-- ==== Sys2Proof/Machine/VersionSelect.lean ====
section
/-! DEFINITION. The capacity and version selector and the commands `VSEL`, `SETVL` (43_version_select.md). -/

namespace Sys2Proof.Machine

/-- `LenBits(v)` (43_version_select.md R110). -/
def lenBits (v : Nat) : Nat := if v ≤ 9 then 8 else 16

/-- `Capacity(v, lvl)` (43_version_select.md R111). -/
def capacity (v : Nat) (lvl : Level) : Except ErrorCode Nat := do
  let d ← dataCw v lvl
  pure ((8 * d - 4 - lenBits v) / 8)

/-- The first version of the list whose capacity holds `len` bytes. -/
def firstFit (len : Nat) (lvl : Level) : List Nat → Except ErrorCode Nat
  | [] => .error .capacityExceeded
  | v :: vs => do
    let cap ← capacity v lvl
    if len ≤ cap then pure v else firstFit len lvl vs

/-- `SelectVersion(len, lvl)`: the scan of the versions 1..40 (43_version_select.md R111). -/
def selectVersion (len : Nat) (lvl : Level) : Except ErrorCode Nat := firstFit len lvl (List.range' 1 40)

/-- `VSEL lvl` (43_version_select.md R112). -/
def execVsel (lvl : Level) (s : State) : Result :=
  command s (do
    let v ← selectVersion s.payload.length lvl
    pure (setRes (resOfNat v) (discardMatrix { s with ver := BitVec.ofNat 6 v, ecl := lvl })))

/-- `SETVL lvl, v` (43_version_select.md R113). -/
def execSetvl (lvl : Level) (v : Byte) (s : State) : Result :=
  command s (do
    let ver ← versionOperand v
    pure (discardMatrix { s with ver := ver, ecl := lvl }))

end Sys2Proof.Machine
end

