-- ==== Sys2Proof/Machine/BitBuffer.lean ====
section
/-! DEFINITION. The bit buffer, the data encoding, and the commands `BBRST`, `BBPUT`, `BBENC` (44_bitbuf.md). -/

namespace Sys2Proof.Machine

/-- The `n` low bits of `num`, most significant first: what `Put` appends (44_bitbuf.md R120, 20_memory.md R42). -/
def msbBits (num n : Nat) : List Bool := (List.range n).map (fun i => num.testBit (n - 1 - i))

/-- `Put(bb, num, n)` (44_bitbuf.md R120). -/
def putBits (bb : List Bool) (num n : Nat) : List Bool := bb ++ msbBits num n

/-- The pad byte of pad position `k` (44_bitbuf.md R121 step 7). -/
def padByte (k : Nat) : Nat := if k % 2 = 0 then pad0 else pad1

/-- Steps (2) to (4) of `EncodeData`: mode, length field, payload (44_bitbuf.md R121). -/
def headerAndPayload (payload : List Byte) (v : Nat) : List Bool :=
  putBits (putBits [] modeByte 4) payload.length (lenBits v) ++ payload.flatMap (fun b => msbBits b.toNat 8)

/-- Step (5): the terminator, where at least four bits are spare (44_bitbuf.md R121). -/
def terminate (bb : List Bool) (cap : Nat) : List Bool := if bb.length + 4 ≤ cap then putBits bb 0 4 else bb

/-- Step (6): zero bits to the byte boundary (44_bitbuf.md R121). -/
def alignToByte (bb : List Bool) : List Bool := bb ++ List.replicate ((8 - bb.length % 8) % 8) false

/-- Step (7): a pad byte is appended as long as the length is below `cap` (44_bitbuf.md R121). -/
def padToCapacity (bb : List Bool) (cap : Nat) : List Bool :=
  bb ++ (List.range ((cap - bb.length + 7) / 8)).flatMap (fun k => msbBits (padByte k) 8)

/-- `EncodeData(payload, v, lvl)` (44_bitbuf.md R121). -/
def encodeData (payload : List Byte) (v : Nat) (lvl : Level) : Except ErrorCode (List Bool) := do
  let d ← dataCw v lvl
  let cap := 8 * d
  if 4 + lenBits v + 8 * payload.length > cap then throw .overflow
  pure (padToCapacity (alignToByte (terminate (headerAndPayload payload v) cap)) cap)

/-- The number whose bits, most significant first, are given (20_memory.md R43). -/
def numOfBits (bits : List Bool) : Nat := bits.foldl (fun acc b => 2 * acc + b.toNat) 0

/-- The codewords of a bit sequence: codeword `k` is bits 8k..8k+7, the earlier bit the more significant (20_memory.md R43). -/
def bytesOfBits : List Bool → List Byte
  | b0 :: b1 :: b2 :: b3 :: b4 :: b5 :: b6 :: b7 :: rest =>
    BitVec.ofNat 8 (numOfBits [b0, b1, b2, b3, b4, b5, b6, b7]) :: bytesOfBits rest
  | _ => []

/-- `BBRST` (44_bitbuf.md R122). -/
def execBbrst (s : State) : Result := command s (.ok { s with bb := [] })

/-- `BBPUT n, val` (44_bitbuf.md R123). -/
def execBbput (n : Byte) (val : BitVec 16) (s : State) : Result :=
  command s (do
    let count ← bitCountOperand n
    let bb ← appendTo s.bb (msbBits (unsignedImm val) count)
    pure { s with bb := bb })

/-- `BBENC` (44_bitbuf.md R124). -/
def execBbenc (s : State) : Result :=
  command s (do
    requireVersion s
    let bb ← encodeData s.payload s.ver.toNat s.ecl
    pure { s with bb := bb })

end Sys2Proof.Machine
end

