-- ==== Sys2Proof/Machine/BlockSplit.lean ====
section
/-! DEFINITION. The block splitter, the final codeword order, and the command `SPLIT` (45_block_split.md). -/

namespace Sys2Proof.Machine

/-- `SplitBlocks`: block `k` takes the next `data` codewords and is encoded on its own; answers the data blocks and the
EC blocks, in block order (45_block_split.md R135). -/
def splitBlocks : List Byte → List Block → Except ErrorCode (List (List Byte) × List (List Byte))
  | _, [] => .ok ([], [])
  | dcw, b :: bs => do
    let ec ← rsEncode (dcw.take b.data) (b.total - b.data)
    let rest ← splitBlocks (dcw.drop b.data) bs
    pure (dcw.take b.data :: rest.1, ec :: rest.2)

/-- `AssembleSequential` (45_block_split.md R136). -/
def assembleSequential (dblk ecblk : List (List Byte)) : List Byte := dblk.flatten ++ ecblk.flatten

/-- The largest length of a block. -/
def maxLength (blks : List (List Byte)) : Nat := blks.foldl (fun m b => max m b.length) 0

/-- Codeword `i` of every block that has one, in block order, for i = 0, 1, ... (45_block_split.md R137). -/
def interleaved (blks : List (List Byte)) : List Byte :=
  (List.range (maxLength blks)).flatMap (fun i => blks.filterMap (fun b => b[i]?))

/-- `AssembleRoundRobin` (45_block_split.md R137). -/
def assembleRoundRobin (dblk ecblk : List (List Byte)) : List Byte := interleaved dblk ++ interleaved ecblk

/-- `Assemble` (45_block_split.md R137). -/
def assemble (mode : Interleave) (dblk ecblk : List (List Byte)) : List Byte :=
  match mode with
  | .sequential => assembleSequential dblk ecblk
  | .roundRobin => assembleRoundRobin dblk ecblk

/-- The final codeword sequence of a padded bit buffer (45_block_split.md R135, R137, R138). -/
def finalCodewords (cfg : Config) (bb : List Bool) (v : Nat) (lvl : Level) : Except ErrorCode (List Byte) := do
  let bs ← blocks v lvl
  let parts ← splitBlocks (bytesOfBits bb) bs
  pure (assemble cfg.interleave parts.1 parts.2)

/-- `SPLIT` (45_block_split.md R138). -/
def execSplit (s : State) : Result :=
  command s (do
    requireVersion s
    let d ← dataCw s.ver.toNat s.ecl
    if s.bb.length ≠ 8 * d then throw .illegalCommand
    let cw ← finalCodewords s.cfg s.bb s.ver.toNat s.ecl
    pure { s with cw := cw })

end Sys2Proof.Machine
end

