-- ==== Sys2Proof/Machine/Matrix.lean ====
section
/-! DEFINITION. The module-matrix builder and the commands `MXRST`, `MXPAT`, `MXRSV`, `MXMAP`, `MXFIN`, `MASKQ` (46_matrix.md). -/

namespace Sys2Proof.Machine

/-! ## Structural patterns -/

/-- The offsets -1..7 of a finder with its separator (46_matrix.md R147). -/
def finderOffsets : List Int := [-1, 0, 1, 2, 3, 4, 5, 6, 7]

/-- A finder's dark cells: the outer ring and the 3x3 centre (46_matrix.md R147; 90_conflicts.md C1). -/
def finderDark (r c : Int) : Bool :=
  (0 ≤ r && r ≤ 6 && (c == 0 || c == 6)) || (0 ≤ c && c ≤ 6 && (r == 0 || r == 6))
    || (2 ≤ r && r ≤ 4 && 2 ≤ c && c ≤ 4)

/-- The cell a finder at corner (r0, c0) writes for an offset, where the grid has it (46_matrix.md R147). -/
def finderWrite (n r0 c0 : Nat) (r c : Int) : Option (Nat × Nat × Cell) :=
  if (r0 : Int) + r < 0 ∨ (r0 : Int) + r ≥ n ∨ (c0 : Int) + c < 0 ∨ (c0 : Int) + c ≥ n then none
  else some (((r0 : Int) + r).toNat, ((c0 : Int) + c).toNat, cellOfBool (finderDark r c))

/-- The writes of one finder. -/
def finderWrites (n r0 c0 : Nat) : List (Nat × Nat × Cell) :=
  finderOffsets.flatMap (fun r => finderOffsets.filterMap (fun c => finderWrite n r0 c0 r c))

/-- `PlaceFinders`: top-left, bottom-left, top-right (46_matrix.md R147). -/
def placeFinders (n : Nat) (g : Grid) : Grid :=
  setCells g (finderWrites n 0 0 ++ finderWrites n (n - 7) 0 ++ finderWrites n 0 (n - 7))

/-- The offsets -2..2 of an alignment pattern (46_matrix.md R148). -/
def alignOffsets : List Int := [-2, -1, 0, 1, 2]

/-- An alignment pattern's dark cells: the border ring and the centre (46_matrix.md R148). -/
def alignDark (r c : Int) : Bool := max r.natAbs c.natAbs == 2 || (r == 0 && c == 0)

/-- The writes of the alignment pattern centred at (row, col) (46_matrix.md R148). -/
def alignWrites (row col : Nat) : List (Nat × Nat × Cell) :=
  alignOffsets.flatMap (fun r => alignOffsets.map (fun c =>
    (((row : Int) + r).toNat, ((col : Int) + c).toNat, cellOfBool (alignDark r c))))

/-- One anchor: skipped where its cell is already claimed (46_matrix.md R148). -/
def placeAnchor (g : Grid) (anchor : Nat × Nat) : Grid :=
  if getCell g anchor.1 anchor.2 = .unset then setCells g (alignWrites anchor.1 anchor.2) else g

/-- The anchors: every ordered pair of table values (46_matrix.md R148). -/
def anchors (pos : List Nat) : List (Nat × Nat) := pos.flatMap (fun row => pos.map (fun col => (row, col)))

/-- `ALIGN_POS_TABLE[v]`; a version outside 1..40 is `InvalidLookup` (46_matrix.md R150, 60_exceptions.md R216; log entry 6). -/
def alignPositions (v : Nat) : Except ErrorCode (List Nat) :=
  if v = 0 then .error .invalidLookup
  else
    match alignPosTable[v - 1]? with
    | none => .error .invalidLookup
    | some pos => .ok pos

/-- `PlaceAlignment` for the table row `pos` (46_matrix.md R148). -/
def placeAlignment (pos : List Nat) (g : Grid) : Grid := (anchors pos).foldl placeAnchor g

/-- A cell written only while it is unset (46_matrix.md R149). -/
def setIfUnset (g : Grid) (row col : Nat) (v : Cell) : Grid :=
  if getCell g row col = .unset then setCell g row col v else g

/-- The indices 8..N-9 between two finders (46_matrix.md R149). -/
def timingSpan (n : Nat) : List Nat := List.range' 8 (n - 16)

/-- The timing cell of index `k`: dark at even `k` (46_matrix.md R149). -/
def timingCell (k : Nat) : Cell := cellOfBool (k % 2 == 0)

/-- `PlaceTiming`: column 6, then row 6 (46_matrix.md R149). -/
def placeTiming (n : Nat) (g : Grid) : Grid :=
  (timingSpan n).foldl (fun g' k => setIfUnset g' 6 k (timingCell k))
    ((timingSpan n).foldl (fun g' k => setIfUnset g' k 6 (timingCell k)) g)

/-- Finders, then alignment patterns, then timing (46_matrix.md R151; 90_conflicts.md C8). -/
def placePatterns (n : Nat) (pos : List Nat) (g : Grid) : Grid :=
  placeTiming n (placeAlignment pos (placeFinders n g))

/-! ## Metadata cells -/

/-- `A(i)` (46_matrix.md R152). -/
def fmtCellA (n i : Nat) : Nat × Nat :=
  if i ≤ 5 then (i, 8) else if i ≤ 7 then (i + 1, 8) else (n - 15 + i, 8)

/-- `B(i)` (46_matrix.md R152). -/
def fmtCellB (n i : Nat) : Nat × Nat :=
  if i ≤ 7 then (8, n - 1 - i) else if i = 8 then (8, 7) else (8, 14 - i)

/-- The first cell of `VerCells(i)`, left of the top-right finder (46_matrix.md R153). -/
def verCellA (n i : Nat) : Nat × Nat := (i / 3, i % 3 + n - 11)

/-- The second cell of `VerCells(i)`, above the bottom-left finder (46_matrix.md R153). -/
def verCellB (n i : Nat) : Nat × Nat := (i % 3 + n - 11, i / 3)

/-- The writes that give both format copies the bits `f` (46_matrix.md R152, R160). -/
def fmtWrites (n : Nat) (f : Nat → Cell) : List (Nat × Nat × Cell) :=
  (List.range 15).flatMap (fun i =>
    [((fmtCellA n i).1, (fmtCellA n i).2, f i), ((fmtCellB n i).1, (fmtCellB n i).2, f i)])

/-- The writes that give both version blocks the bits `w` (46_matrix.md R153, R160). -/
def verWrites (n : Nat) (w : Nat → Cell) : List (Nat × Nat × Cell) :=
  (List.range 18).flatMap (fun i =>
    [((verCellA n i).1, (verCellA n i).2, w i), ((verCellB n i).1, (verCellB n i).2, w i)])

/-- The writes of the metadata cells: format band, dark module (46_matrix.md R154), and version blocks from version 7 on. -/
def metaWrites (n v : Nat) (f : Nat → Cell) (darkModule : Cell) (w : Nat → Cell) : List (Nat × Nat × Cell) :=
  fmtWrites n f ++ [(n - 8, 8, darkModule)] ++ (if v ≥ 7 then verWrites n w else [])

/-- `ReserveMeta`: every metadata cell holds a light placeholder (46_matrix.md R155). -/
def reserveMeta (n v : Nat) (g : Grid) : Grid :=
  setCells g (metaWrites n v (fun _ => .light) .light (fun _ => .light))

/-- `WriteMeta(lvl, k, v)`: the real metadata bits (46_matrix.md R160). -/
def writeMeta (n : Nat) (lvl : Level) (k : BitVec 3) (v : BitVec 6) (g : Grid) : Grid :=
  setCells g (metaWrites n v.toNat (fun i => cellOfBool ((bchFormat (formatData lvl k)).getLsbD i)) .dark
    (fun i => cellOfBool ((bchVersion v).getLsbD i)))

/-! ## Data mapping -/

/-- `MaskPred(k, i, j)` (46_matrix.md R158). -/
def maskPred (k : BitVec 3) (i j : Nat) : Bool :=
  match k.toNat with
  | 0 => (i + j) % 2 == 0
  | 1 => i % 2 == 0
  | 2 => j % 3 == 0
  | 3 => (i + j) % 3 == 0
  | 4 => (i / 2 + j / 3) % 2 == 0
  | 5 => (i * j) % 2 + (i * j) % 3 == 0
  | 6 => ((i * j) % 2 + (i * j) % 3) % 2 == 0
  | _ => ((i * j) % 3 + (i + j) % 2) % 2 == 0

/-- The right columns of the column pairs from `col` leftward: column 6 belongs to no pair (46_matrix.md R157). -/
def rightColumns : Nat → Nat → List Nat
  | 0, _ => []
  | fuel + 1, col =>
    if col = 0 then []
    else
      let right := if col = 6 then 5 else col
      right :: rightColumns fuel (right - 2)

/-- The rows of the `p`-th column pair: upward for the first pair, then alternating (46_matrix.md R157). -/
def scanRows (n p : Nat) : List Nat := if p % 2 = 0 then (List.range n).reverse else List.range n

/-- Every cell in the order of the traversal; inside a pair the right cell comes before the left (46_matrix.md R157). -/
def visitOrder (n : Nat) : List (Nat × Nat) :=
  (rightColumns n (n - 1)).zipIdx.flatMap (fun pair =>
    (scanRows n pair.2).flatMap (fun row => [(row, pair.1), (row, pair.1 - 1)]))

/-- The data cells, those unset on entry, in the order they receive bits (46_matrix.md R157; log entry 8). -/
def dataCells (n : Nat) (g : Grid) : List (Nat × Nat) :=
  (visitOrder n).filter (fun rc => getCell g rc.1 rc.2 == .unset)

/-- Bit `idx` of the codeword stream, from bit 7 of each codeword down; 0 past the end (20_memory.md R45; 46_matrix.md R157). -/
def streamBit (cw : List Byte) (idx : Nat) : Bool :=
  match cw[idx / 8]? with
  | some b => b.getLsbD (7 - idx % 8)
  | none => false

/-- `MapData(cw, k)`: the data cell of index `idx` is dark where the stream bit XOR the mask is 1 (46_matrix.md R157). -/
def mapData (n : Nat) (cw : List Byte) (k : BitVec 3) (g : Grid) : Grid :=
  setCells g ((dataCells n g).zipIdx.map (fun cell =>
    (cell.1.1, cell.1.2, cellOfBool (xor (streamBit cw cell.2) (maskPred k cell.1.1 cell.1.2)))))

/-! ## The composite steps -/

/-- A grid with patterns placed and metadata reserved, from unset cells (46_matrix.md R163). -/
def reservedGrid (n v : Nat) (pos : List Nat) : Grid := reserveMeta n v (placePatterns n pos (unsetGrid n))

/-- The grid of `BuildTrial(k)` (46_matrix.md R163). -/
def buildTrial (n v : Nat) (pos : List Nat) (cw : List Byte) (k : BitVec 3) : Grid :=
  mapData n cw k (reservedGrid n v pos)

/-- The grid of `BuildFinal(k)` (46_matrix.md R163). -/
def buildFinal (n : Nat) (v : BitVec 6) (pos : List Nat) (cw : List Byte) (lvl : Level) (k : BitVec 3) : Grid :=
  writeMeta n lvl k v (buildTrial n v.toNat pos cw k)

/-! ## Commands -/

/-- `MXRST` (46_matrix.md R146). -/
def execMxrst (s : State) : Result :=
  command s (do
    requireVersion s
    pure { s with n := moduleCount s.ver, mx := unsetGrid (moduleCount s.ver).toNat, stage := .empty })

/-- `MXPAT` (46_matrix.md R151). -/
def execMxpat (s : State) : Result :=
  command s (do
    requireStage [.empty] s
    let pos ← alignPositions s.ver.toNat
    pure { s with mx := placePatterns s.n.toNat pos s.mx, stage := .patterns })

/-- `MXRSV` (46_matrix.md R156). -/
def execMxrsv (s : State) : Result :=
  command s (do
    requireStage [.patterns] s
    pure { s with mx := reserveMeta s.n.toNat s.ver.toNat s.mx, stage := .reserved })

/-- `MXMAP k` (46_matrix.md R159). -/
def execMxmap (k : Byte) (s : State) : Result :=
  command s (do
    let mask ← maskOperand k
    requireStage [.reserved] s
    pure { s with mask := mask, mx := mapData s.n.toNat s.cw mask s.mx, stage := .mapped })

/-- `MXFIN` (46_matrix.md R161). -/
def execMxfin (s : State) : Result :=
  command s (do
    requireStage [.mapped] s
    pure { s with mx := writeMeta s.n.toNat s.ecl s.mask s.ver s.mx, stage := .final })

/-- `MASKQ k, row, col` (46_matrix.md R162). -/
def execMaskq (k row col : Byte) (s : State) : Result :=
  command s (do
    let mask ← maskOperand k
    pure (setRes (resOfBool (maskPred mask row.toNat col.toNat)) s))

end Sys2Proof.Machine
end

