-- ==== Sys2Proof/Machine/MaskEval.lean ====
section
/-! DEFINITION. The mask-score evaluator, the best-mask search, and the commands `MXPEN`, `MXBEST` (47_mask_eval.md). -/

namespace Sys2Proof.Machine

/-- The 0/1 value of a cell; an unset cell has none, and no scored grid holds one (47_mask_eval.md R175; log entry 7). -/
def isDark (c : Cell) : Bool := c == .dark

/-- The rows of the grid as 0/1 lines (47_mask_eval.md R175). -/
def boolRows (g : Grid) : List (List Bool) := g.map (fun cells => cells.map isDark)

/-- Column `c` of the lines. -/
def columnOf (rows : List (List Bool)) (c : Nat) : List Bool := rows.map (fun cells => cells.getD c false)

/-- The `n` columns of the lines. -/
def columnsOf (n : Nat) (rows : List (List Bool)) : List (List Bool) := (List.range n).map (columnOf rows)

/-- The score of a maximal run of length `len` (47_mask_eval.md R176). -/
def runPoints (len : Nat) : Nat := if len ≥ 5 then 3 + (len - 5) else 0

/-- The score of the runs of a line, `len` cells equal to `b` standing before it. -/
def runScoreFrom (b : Bool) (len : Nat) : List Bool → Nat
  | [] => runPoints len
  | x :: xs => if x = b then runScoreFrom b (len + 1) xs else runPoints len + runScoreFrom x 1 xs

/-- `RunScore(line)`: every maximal run scores once (47_mask_eval.md R176). -/
def runScore : List Bool → Nat
  | [] => 0
  | x :: xs => runScoreFrom x 1 xs

/-- `PenA` (47_mask_eval.md R176). -/
def penA (rows cols : List (List Bool)) : Nat := (rows.map runScore).sum + (cols.map runScore).sum

/-- The 2x2 blocks of identical cells between two neighbouring rows. -/
def blockCount : List Bool → List Bool → Nat
  | a :: a' :: as, b :: b' :: bs =>
    (if a = a' ∧ a = b ∧ a = b' then 1 else 0) + blockCount (a' :: as) (b' :: bs)
  | _, _ => 0

/-- The 2x2 blocks of a grid. -/
def blockCounts : List (List Bool) → Nat
  | a :: b :: rest => blockCount a b + blockCounts (b :: rest)
  | _ => 0

/-- `PenB`: three for every 2x2 block of identical cells, overlapping ones too (47_mask_eval.md R177). -/
def penB (rows : List (List Bool)) : Nat := 3 * blockCounts rows

/-- `PAT` (47_mask_eval.md R178). -/
def finderMimic : List Bool := [true, false, true, true, true, false, true]

/-- `PatCount(line)`: every start position, only the seven cells tested (47_mask_eval.md R178). -/
def patCount : List Bool → Nat
  | [] => 0
  | x :: xs => (if finderMimic.isPrefixOf (x :: xs) then 1 else 0) + patCount xs

/-- `PenC` (47_mask_eval.md R178). -/
def penC (rows cols : List (List Bool)) : Nat := 40 * ((rows.map patCount).sum + (cols.map patCount).sum)

/-- The number of dark cells. -/
def darkCount (rows : List (List Bool)) : Nat := (rows.map (fun cells => cells.count true)).sum

/-- `|a - b|` of two counts. -/
def absDiff (a b : Nat) : Nat := (a - b) + (b - a)

/-- `PenD` in the integer form of 47_mask_eval.md R179. -/
def penD (n : Nat) (rows : List (List Bool)) : Nat :=
  10 * (absDiff (100 * darkCount rows) (50 * (n * n)) / (5 * (n * n)))

/-- `Penalty(g)` of an `n × n` grid (47_mask_eval.md R180). -/
def penalty (n : Nat) (g : Grid) : Nat :=
  penA (boolRows g) (columnsOf n (boolRows g)) + penB (boolRows g)
    + penC (boolRows g) (columnsOf n (boolRows g)) + penD n (boolRows g)

/-- The later candidates replace the best one only with a strictly lower score (47_mask_eval.md R183). -/
def pickBest (best : BitVec 3 × Nat) : List (BitVec 3 × Nat) → BitVec 3 × Nat
  | [] => best
  | cand :: rest => pickBest (if cand.2 < best.2 then cand else best) rest

/-- The mask indices in trial order (47_mask_eval.md R183). -/
def laterMasks : List (BitVec 3) := [1#3, 2#3, 3#3, 4#3, 5#3, 6#3, 7#3]

/-- The score of the trial under mask `k` (47_mask_eval.md R183). -/
def trialScore (n v : Nat) (pos : List Nat) (cw : List Byte) (k : BitVec 3) : Nat :=
  penalty n (buildTrial n v pos cw k)

/-- The search of `BestMask`: the winner and its score (47_mask_eval.md R183). -/
def bestMask (n v : Nat) (pos : List Nat) (cw : List Byte) : BitVec 3 × Nat :=
  pickBest (0#3, trialScore n v pos cw 0#3) (laterMasks.map (fun k => (k, trialScore n v pos cw k)))

/-- `BestMask` with the registers `MXBEST` and `GEN` write from it (47_mask_eval.md R183, R184). -/
def runBestMask (s : State) : Except ErrorCode State := do
  let pos ← alignPositions s.ver.toNat
  let n := moduleCount s.ver
  let best := bestMask n.toNat s.ver.toNat pos s.cw
  pure { s with
    n := n
    mx := buildFinal n.toNat s.ver pos s.cw s.ecl best.1
    mask := best.1
    bestpen := BitVec.ofNat 32 best.2
    stage := .final }

/-- `MXPEN` (47_mask_eval.md R182). -/
def execMxpen (s : State) : Result :=
  command s (do
    requireStage [.mapped, .final] s
    pure (setRes (resOfNat (penalty s.n.toNat s.mx)) s))

/-- `MXBEST` (47_mask_eval.md R184). -/
def execMxbest (s : State) : Result :=
  command s (do
    requireVersion s
    runBestMask s)

end Sys2Proof.Machine
end

