-- ==== Sys2Proof/Machine/Generate.lean ====
section
/-! DEFINITION. The whole pipeline and the symbol queries: `NOP`, `PLRST`, `PLPUSH`, `GEN`, `ISDARK`, `MODCNT` (49_generate.md). -/

namespace Sys2Proof.Machine

/-- `NOP` (49_generate.md R200). -/
def execNop (s : State) : Result := command s (.ok s)

/-- `PLRST` (49_generate.md R201). -/
def execPlrst (s : State) : Result := command s (.ok { s with payload := [] })

/-- `PLPUSH v` (49_generate.md R202). -/
def execPlpush (v : Byte) (s : State) : Result :=
  command s (do
    let payload ← appendTo s.payload [v]
    pure { s with payload := payload })

/-- `GEN lvl` (49_generate.md R203). -/
def execGen (lvl : Level) (s : State) : Result :=
  command s (do
    let v ← selectVersion s.payload.length lvl
    let bb ← encodeData s.payload v lvl
    let cw ← finalCodewords s.cfg bb v lvl
    runBestMask { s with ver := BitVec.ofNat 6 v, ecl := lvl, bb := bb, cw := cw })

/-- `ISDARK row, col` (49_generate.md R204). -/
def execIsdark (row col : Byte) (s : State) : Result :=
  command s (do
    requireStage [.final] s
    if row.toNat ≥ s.n.toNat ∨ col.toNat ≥ s.n.toNat then throw .malformedMatrixAccess
    pure (setRes (resOfBool (isDark (getCell s.mx row.toNat col.toNat))) s))

/-- `MODCNT` (49_generate.md R205). -/
def execModcnt (s : State) : Result := command s (.ok (setRes (s.n.setWidth 32) s))

end Sys2Proof.Machine
end

