-- ==== Sys2Proof/Machine/Dispatch.lean ====
section
/-! DEFINITION. The meaning of each command: one arm per constructor of Instr. -/

namespace Sys2Proof.Machine

/-- The effect of a command presented to the core (30_encoding.md R63). -/
def exec (i : Instr) (s : State) : Host.Outcome State Fault Refusal :=
  match i with
  | .nop => Sys2Proof.Machine.execNop s
  | .gexp n => Sys2Proof.Machine.execGexp n s
  | .glog n => Sys2Proof.Machine.execGlog n s
  | .pclr r => Sys2Proof.Machine.execPclr r s
  | .ppush r v => Sys2Proof.Machine.execPpush r v s
  | .pmul => Sys2Proof.Machine.execPmul s
  | .pmod => Sys2Proof.Machine.execPmod s
  | .rsgen ec => Sys2Proof.Machine.execRsgen ec s
  | .dbrst => Sys2Proof.Machine.execDbrst s
  | .dbpush v => Sys2Proof.Machine.execDbpush v s
  | .rsenc ec => Sys2Proof.Machine.execRsenc ec s
  | .vsel lvl => Sys2Proof.Machine.execVsel lvl s
  | .setvl lvl v => Sys2Proof.Machine.execSetvl lvl v s
  | .bbrst => Sys2Proof.Machine.execBbrst s
  | .bbput n val => Sys2Proof.Machine.execBbput n val s
  | .bbenc => Sys2Proof.Machine.execBbenc s
  | .split => Sys2Proof.Machine.execSplit s
  | .mxrst => Sys2Proof.Machine.execMxrst s
  | .mxpat => Sys2Proof.Machine.execMxpat s
  | .mxrsv => Sys2Proof.Machine.execMxrsv s
  | .mxmap k => Sys2Proof.Machine.execMxmap k s
  | .mxfin => Sys2Proof.Machine.execMxfin s
  | .maskq k row col => Sys2Proof.Machine.execMaskq k row col s
  | .mxpen => Sys2Proof.Machine.execMxpen s
  | .mxbest => Sys2Proof.Machine.execMxbest s
  | .bchfmt d => Sys2Proof.Machine.execBchfmt d s
  | .bchver v => Sys2Proof.Machine.execBchver v s
  | .gen lvl => Sys2Proof.Machine.execGen lvl s
  | .isdark row col => Sys2Proof.Machine.execIsdark row col s
  | .modcnt => Sys2Proof.Machine.execModcnt s
  | .plrst => Sys2Proof.Machine.execPlrst s
  | .plpush v => Sys2Proof.Machine.execPlpush v s

end Sys2Proof.Machine
end

