-- ==== Sys2Proof/Machine/Step.lean ====
section
/-! DEFINITION. One step of the core: the host's next event, handled to completion (10_state.md R10).
The core has no program counter and fetches nothing (R12); the host's commands wait in `State.port` (log entry 2). -/

namespace Sys2Proof.Machine

/-- One step. -/
def step (s : State) : Host.Outcome State Fault Refusal := hostStep exec s

/-- `s` with the word the host presents next: the very next step decodes and runs it. -/
def State.withFetchWord (s : State) (nbits w : Nat) : State := presentWord (tableWord nbits w) s

end Sys2Proof.Machine
end

