-- ==== Sys2Proof/Machine/HostView.lean ====
section
/-! DEFINITION. What the host reads between commands (10_state.md R32), as functions of the state: reading has no side effect.
The numbers are the codes of the rules cited; the address spaces are those of 20_memory.md R40. -/

namespace Sys2Proof.Machine

/-- The scalar registers (10_state.md R13 to R21) and the length counters (R22 to R27). -/
inductive ScalarReg where
  | ver | ecl | mask | n | bestpen | res | stage | err | fault
  | plen | paLen | pbLen | prLen | dblen | eclen | bblen | cwlen
  deriving DecidableEq, Repr

/-- The value the host reads from a scalar register (10_state.md R32). -/
def readScalar (r : ScalarReg) (s : State) : Nat :=
  match r with
  | .ver => s.ver.toNat
  | .ecl => (levelCode s.ecl).toNat
  | .mask => s.mask.toNat
  | .n => s.n.toNat
  | .bestpen => s.bestpen.toNat
  | .res => s.res.toNat
  | .stage => (stageCode s.stage).toNat
  | .err => (statusCode s.err).toNat
  | .fault => s.fault.toNat
  | .plen => s.payload.length
  | .paLen => s.pa.length
  | .pbLen => s.pb.length
  | .prLen => s.pr.length
  | .dblen => s.db.length
  | .eclen => s.ecb.length
  | .bblen => s.bb.length
  | .cwlen => s.cw.length

/-- The one-dimensional address spaces (20_memory.md R40). -/
inductive Space where
  | exp | log | payload | pa | pb | pr | db | ecb | bb | cw
  deriving DecidableEq, Repr

/-- The element of a space at an index; none where the index names no element (20_memory.md R40, R50). -/
def readElement (sp : Space) (i : Nat) (s : State) : Option Nat :=
  match sp with
  | .exp => rowsEntry expRows i
  | .log => if i = 0 then none else rowsEntry logRows (i - 1)
  | .payload => (s.payload[i]?).map BitVec.toNat
  | .pa => (s.pa[i]?).map BitVec.toNat
  | .pb => (s.pb[i]?).map BitVec.toNat
  | .pr => (s.pr[i]?).map BitVec.toNat
  | .db => (s.db[i]?).map BitVec.toNat
  | .ecb => (s.ecb[i]?).map BitVec.toNat
  | .bb => (s.bb[i]?).map Bool.toNat
  | .cw => (s.cw[i]?).map BitVec.toNat

/-- `MemRead(S, i, n)`: the elements `i..i+n-1` (00_scope.md R7); none where one of them does not exist. -/
def memRead (sp : Space) (i n : Nat) (s : State) : Option (List Nat) :=
  (List.range' i n).mapM (fun j => readElement sp j s)

/-- The code of the matrix cell at (row, col); none outside the matrix (20_memory.md R40, R48; 10_state.md R28). -/
def readMatrix (row col : Nat) (s : State) : Option Nat :=
  if row < s.n.toNat ∧ col < s.n.toNat then some (cellCode (getCell s.mx row col)).toNat else none

end Sys2Proof.Machine
end

