-- ==== Sys2Proof/Safety.lean ====
section
/-! DEFINITION. The terms claims are stated in: the invariants of a state that a run reaches, the conditions under which a command
reports an error (60_exceptions.md R211), and the spec's formulas that a claim holds the model against. -/

namespace Sys2Proof.Machine

/-! ## Outcomes -/

/-- The core accepts commands: `FAULT = 0` (10_state.md R21). -/
abbrev Accepting (s : State) : Prop := s.fault = false

/-- The effect of a successful command on its state. -/
abbrev doneIn (t : State) : Result := .next { t with err := .ok }

/-- The effect of a command that raises a recoverable error: `ERR` alone (60_exceptions.md R212). -/
abbrev turnedAway (e : ErrorCode) (s : State) : Result := .next { s with err := .failed e }

/-- The effect of a command that raises a fatal error: `ERR` and `FAULT` alone (60_exceptions.md R214). -/
abbrev stuckWith (e : ErrorCode) (s : State) : Result := .next { s with err := .failed e, fault := true }

/-- Every word with operation code `op` is read as `cmd` of its fields, but for those that meet `bad`: an accepting core reports
`IllegalCommand` on them and changes nothing else (30_encoding.md R61 to R66). -/
def EncodedAs (op : Byte) (bad : Fields → Prop) (cmd : Fields → Instr) : Prop :=
  ∀ w, (fieldsOf w).op = op →
    (¬ bad (fieldsOf w) → decode w = .ok (cmd (fieldsOf w))) ∧
    (bad (fieldsOf w) → ∀ s, Accepting s → acceptWord exec w s = turnedAway .illegalCommand s)

/-- The polynomial register of an operand field of 0..2: 0 is `PA`, 1 is `PB`, 2 is `PR` (10_state.md R23). -/
def regOf (v : Byte) : PolyReg := if v = 0#8 then .pa else if v = 1#8 then .pb else .pr

/-- The level of an operand field of 0..3: M = 0, L = 1, H = 2, Q = 3 (10_state.md R14). -/
def levelOf (v : Byte) : Level := if v = 0#8 then .m else if v = 1#8 then .l else if v = 2#8 then .h else .q

/-! ## Polynomials -/

/-- A polynomial is canonical: its leading coefficient is not zero (10_state.md R23, 41_poly.md R90). -/
def Canonical (p : Poly) : Prop := p.head? ≠ some 0#8

/-- No coefficient is zero. -/
def NoZero (p : List Byte) : Prop := ∀ x ∈ p, x ≠ 0#8

/-- `EXP[i]` (40_gf.md R80). -/
def expEntry (i : Nat) : Byte := BitVec.ofNat 8 ((rowsEntry expRows i).getD 0)

/-- `LOG[n]` (40_gf.md R81). -/
def logEntry (n : Byte) : Nat := (rowsEntry logRows (n.toNat - 1)).getD 0

/-- `Gexp(Glog(x) + Glog(y))`, the product of two non-zero bytes (40_gf.md R84). -/
def gfProduct (x y : Byte) : Byte := gexp ((logEntry x : Int) + (logEntry y : Int))

/-- Coefficient `k` of a product as 41_poly.md R91 gives it: every pair (i, j) with i + j = k, XORed together. -/
def productCoefficient (a b : Poly) (k : Nat) : Byte :=
  (List.range (k + 1)).foldl
    (fun acc i => if i < a.length ∧ k - i < b.length then acc ^^^ gfProduct (a.getD i 0#8) (b.getD (k - i) 0#8) else acc) 0#8

/-- The product in GF(2^8), 0 included; the hardware has no path that computes it (40_gf.md R84). -/
def gfTimes (x y : Byte) : Byte := if x = 0#8 ∨ y = 0#8 then 0#8 else gfProduct x y

/-- The product of two coefficient sequences over GF(2^8), no zero stripped: what "multiple of" means (42_rs.md R101). -/
def timesRows : List Byte → List Byte → List Byte
  | [], g => zeros (g.length - 1)
  | x :: xs, g => xorLead (g.map (gfTimes x)) (0#8 :: timesRows xs g)

/-- Two coefficient sequences added, element by element. -/
def xorAll (p q : List Byte) : List Byte := List.zipWith (· ^^^ ·) p q

/-! ## Invariants of the states a run reaches -/

/-- The registers and buffers hold values their rules allow (10_state.md R13, R20 to R29; 60_exceptions.md R210, R216). -/
structure RegistersOk (s : State) : Prop where
  /-- `VER` is 0..40 (R13). -/
  ver : s.ver.toNat ≤ 40
  /-- `ERR` never reports `InvalidLookup` (R216). -/
  err : s.err ≠ .failed .invalidLookup
  /-- `FAULT = 1` exactly with a fatal `ERR` (R210, R214). -/
  fault : s.fault = (statusCode s.err).getLsbD 7
  /-- The polynomial registers are canonical (R23, R29 item 5). -/
  pa : Canonical s.pa
  pb : Canonical s.pb
  pr : Canonical s.pr
  /-- The length counters are at most `LEN_MAX`, and `ECLEN` at most 255 (R22 to R27). -/
  payloadLen : s.payload.length ≤ lenMax
  paLen : s.pa.length ≤ lenMax
  pbLen : s.pb.length ≤ lenMax
  prLen : s.pr.length ≤ lenMax
  dbLen : s.db.length ≤ lenMax
  ecbLen : s.ecb.length ≤ 255
  bbLen : s.bb.length ≤ lenMax
  cwLen : s.cw.length ≤ lenMax

/-- `n` rows of `n` cells (10_state.md R28, R29 item 1). -/
def Square (n : Nat) (g : Grid) : Prop := g.length = n ∧ ∀ cells ∈ g, cells.length = n

/-- The matrix has the shape its stage asks for (10_state.md R19, R28, R29 item 1). -/
structure ShapeOk (s : State) : Prop where
  square : Square s.n.toNat s.mx
  noMatrix : s.stage = .none → s.n = 0#8
  side : s.stage ≠ .none → s.ver ≠ 0#6 ∧ s.n.toNat = 4 * s.ver.toNat + 17

/-- The state is one a run can be in, as far as registers, buffers and the matrix's shape go. -/
structure CoreOk (s : State) : Prop where
  registers : RegistersOk s
  shape : ShapeOk s

/-- Cells are unset or assigned as their stage says: all unset in `EMPTY`, assigned: column 6 once the patterns stand, every cell once the data are mapped
(10_state.md R19, R28; 46_matrix.md R157). -/
structure CellsOk (s : State) : Prop where
  core : CoreOk s
  startsUnset : s.stage = .empty → ∀ row < s.n.toNat, ∀ col < s.n.toNat, getCell s.mx row col = .unset
  timingColumn : s.stage = .patterns ∨ s.stage = .reserved → ∀ row < s.n.toNat, getCell s.mx row 6 ≠ .unset
  assigned : s.stage = .mapped ∨ s.stage = .final →
    ∀ row < s.n.toNat, ∀ col < s.n.toNat, getCell s.mx row col ≠ .unset

/-- Every cell of the finder whose 7x7 block has its corner at (r0, c0), separator included, has the value of 46_matrix.md R147. -/
def FinderAt (n r0 c0 : Nat) (g : Grid) : Prop :=
  ∀ r ∈ finderOffsets, ∀ c ∈ finderOffsets,
    0 ≤ (r0 : Int) + r ∧ (r0 : Int) + r < n ∧ 0 ≤ (c0 : Int) + c ∧ (c0 : Int) + c < n →
    getCell g ((r0 : Int) + r).toNat ((c0 : Int) + c).toNat = cellOfBool (finderDark r c)

/-- The three finders with their separators stand unchanged from `PATTERNS` on (46_matrix.md R164). -/
structure FindersOk (s : State) : Prop where
  core : CoreOk s
  finders : s.stage ≠ .none → s.stage ≠ .empty →
    FinderAt s.n.toNat 0 0 s.mx ∧ FinderAt s.n.toNat (s.n.toNat - 7) 0 s.mx ∧ FinderAt s.n.toNat 0 (s.n.toNat - 7) s.mx

/-- The finished symbol carries its metadata: both format copies, the dark module and, from version 7 on, both version blocks
(46_matrix.md R152 to R154, R160, R164). -/
structure MetadataOk (s : State) : Prop where
  core : CoreOk s
  format : s.stage = .final → ∀ i < 15,
    getCell s.mx (fmtCellA s.n.toNat i).1 (fmtCellA s.n.toNat i).2 = cellOfBool ((bchFormat (formatData s.ecl s.mask)).getLsbD i) ∧
    getCell s.mx (fmtCellB s.n.toNat i).1 (fmtCellB s.n.toNat i).2 = cellOfBool ((bchFormat (formatData s.ecl s.mask)).getLsbD i)
  darkModule : s.stage = .final → getCell s.mx (s.n.toNat - 8) 8 = .dark
  version : s.stage = .final → 7 ≤ s.ver.toNat → ∀ i < 18,
    getCell s.mx (verCellA s.n.toNat i).1 (verCellA s.n.toNat i).2 = cellOfBool ((bchVersion s.ver).getLsbD i) ∧
    getCell s.mx (verCellB s.n.toNat i).1 (verCellB s.n.toNat i).2 = cellOfBool ((bchVersion s.ver).getLsbD i)

/-! ## The conditions of 60_exceptions.md R211 and R213 -/

/-- A version is selected: `VER` is 1..40. -/
abbrev VersionSelected (s : State) : Prop := 1 ≤ s.ver.toNat ∧ s.ver.toNat ≤ 40

/-- `PLEN > Capacity(40, lvl)` (R211). -/
def TooLong (lvl : Level) (s : State) : Prop := ∃ cap, capacity 40 lvl = .ok cap ∧ cap < s.payload.length

/-- `4 + LenBits(VER) + 8×PLEN > 8×DataCw(VER, ECL)` (R211). -/
def DoesNotFit (s : State) : Prop :=
  ∃ d, dataCw s.ver.toNat s.ecl = .ok d ∧ 8 * d < 4 + lenBits s.ver.toNat + 8 * s.payload.length

/-- Both operands non-empty, the product not too long, and a zero coefficient in either (R211, R220). -/
def ProductFaults (s : State) : Prop :=
  s.pa ≠ [] ∧ s.pb ≠ [] ∧ s.pa.length + s.pb.length - 1 ≤ lenMax ∧ (0#8 ∈ s.pa ∨ 0#8 ∈ s.pb)

/-- `PB` empty, or `len(PA) ≥ len(PB)` and a zero coefficient in `PB` (R211). -/
def RemainderFaults (s : State) : Prop := s.pb = [] ∨ (s.pb.length ≤ s.pa.length ∧ 0#8 ∈ s.pb)

/-- `ec = 255`, a non-zero byte in `DB`, and the length in bounds (R211, R220). -/
def ParityFaults (ec : Byte) (s : State) : Prop :=
  ec = 255#8 ∧ s.db.length + 255 ≤ lenMax ∧ ∃ x ∈ s.db, x ≠ 0#8

/-! ## Formulas of the rules -/

/-- `MapData` as the loop of 46_matrix.md R157 goes: the cells in traversal order, each that is still unset taking the next bit. -/
def mapLoop (cw : List Byte) (k : BitVec 3) : List (Nat × Nat) → Nat → Grid → Grid
  | [], _, g => g
  | (row, col) :: rest, idx, g =>
    if getCell g row col = .unset then
      mapLoop cw k rest (idx + 1) (setCell g row col (cellOfBool (xor (streamBit cw idx) (maskPred k row col))))
    else mapLoop cw k rest idx g

/-- One column pair of the scan, from `row` in direction `inc`, right cell before left; answers the cells and the row the scan
leaves (46_matrix.md R157). -/
def walkRows (n : Nat) (col : Nat) (inc : Int) : Nat → Int → List (Nat × Nat) × Int
  | 0, row => ([], row)
  | fuel + 1, row =>
    let rest := if row + inc < 0 ∨ row + inc ≥ n then ([], row) else walkRows n col inc fuel (row + inc)
    ((row.toNat, col) :: (row.toNat, col - 1) :: rest.1, rest.2)

/-- The scan as the pseudocode of 46_matrix.md R157 goes, with its `row`, `col` and `inc`. -/
def walkColumns (n : Nat) : Nat → Nat → Int → Int → List (Nat × Nat)
  | 0, _, _, _ => []
  | fuel + 1, col, row, inc =>
    if col = 0 then []
    else
      let right := if col = 6 then 5 else col
      let pair := walkRows n right inc n row
      pair.1 ++ walkColumns n fuel (right - 2) pair.2 (-inc)

/-- The metadata cells of a matrix of version `v` and side `n` (46_matrix.md R152 to R155). -/
def IsMetadata (n v row col : Nat) : Prop :=
  (∃ i < 15, (row, col) = fmtCellA n i ∨ (row, col) = fmtCellB n i) ∨ (row, col) = (n - 8, 8) ∨
    (7 ≤ v ∧ ∃ i < 18, (row, col) = verCellA n i ∨ (row, col) = verCellB n i)

/-- One turn of the loop of 45_block_split.md R137: codeword `i` of every block that has one, appended in block order. -/
def appendTurn (blks : List (List Byte)) (out : List Byte) (i : Nat) : List Byte :=
  blks.foldl (fun out' b => if i < b.length then out' ++ [b.getD i 0#8] else out') out

/-- The turns of that loop: one for every index that some block has. -/
def turns (blks : List (List Byte)) : List Nat := List.range ((blks.map List.length).foldr max 0)

/-- `AssembleRoundRobin` as the pseudocode of 45_block_split.md R137 goes: all turns over the data blocks, then over the EC blocks. -/
def roundRobinLoop (dblk ecblk : List (List Byte)) : List Byte :=
  (turns ecblk).foldl (appendTurn ecblk) ((turns dblk).foldl (appendTurn dblk) [])

/-- Row `r` of the grid as a 0/1 line (47_mask_eval.md section 2). -/
def rowLine (n : Nat) (g : Grid) (r : Nat) : List Bool := (List.range n).map (fun c => decide (getCell g r c = .dark))

/-- Column `c` of the grid as a 0/1 line (47_mask_eval.md section 2). -/
def columnLine (n : Nat) (g : Grid) (c : Nat) : List Bool := (List.range n).map (fun r => decide (getCell g r c = .dark))

/-- The number of 2x2 windows of identical cells of an `n × n` grid, as 47_mask_eval.md R177 counts them. -/
def windowCount (n : Nat) (rows : List (List Bool)) : Nat :=
  ((List.range (n - 1)).map (fun r => ((List.range (n - 1)).filter (fun c =>
    (rows.getD r []).getD c false == (rows.getD r []).getD (c + 1) false &&
    (rows.getD r []).getD c false == (rows.getD (r + 1) []).getD c false &&
    (rows.getD r []).getD c false == (rows.getD (r + 1) []).getD (c + 1) false)).length)).sum

/-- The number of start positions at which the seven cells read `1011101`, as 47_mask_eval.md R178 counts them. -/
def mimicStarts (cells : List Bool) : Nat :=
  ((List.range cells.length).filter (fun st => (cells.drop st).take 7 == finderMimic)).length

end Sys2Proof.Machine
end

