-- ==== Sys2Proof/Certificates/Slice0/Obligations.lean ====
section
/-! DEFINITION. The statements for the provers, one `Obligations.<Name>` each, in the order of OBLIGATIONS.json. -/

open Sys2Proof Sys2Proof.Machine

/-- From every state in which the host asserts reset, the step answers the state in which every scalar register and length
counter reads 0, no buffer has an element and no matrix cell exists. What the host presents next stays presented, and the
model parameters stay (log entries 1 and 2). (10_state.md section 6 (reset values), 70_reset_and_hazards.md section 1) -/
def Obligations.ResetLeavesEveryRegisterZeroAndEveryBufferEmpty : Prop :=
  ∀ (s : State) (rest : List HostEvent), s.port = .reset :: rest →
    ∃ t, step s = .next t ∧ t.port = rest ∧ t.cfg = s.cfg ∧
      (∀ r, readScalar r t = 0) ∧
      (∀ sp, sp ≠ .exp → sp ≠ .log → ∀ i, readElement sp i t = none) ∧
      (∀ row col, readMatrix row col t = none)

/-- State.reset meets CellsOk, FindersOk and MetadataOk, and with each of them CoreOk: the invariants that the tier 3 statements
say every step keeps. (10_state.md section 4, 10_state.md section 6) -/
def Obligations.ResetStateMeetsEveryInvariant : Prop :=
  CellsOk State.reset ∧ FindersOk State.reset ∧ MetadataOk State.reset

/-- When the core accepts commands and the oldest event is a word that decodes to a well-formed command i, the step is exec of i
on the state without that event; and withFetchWord makes the given 32-bit word that very next command. The port is the
model's own (log entry 2). (10_state.md section 1, 30_encoding.md section 1) -/
def Obligations.StepRunsTheDecodedCommand : Prop :=
  (∀ (s : State) (w : Word) (rest : List HostEvent) (i : Instr), Accepting s → s.port = .command w :: rest →
    decode w = .ok i → i.wellFormed = true ∧ step s = exec i { s with port := rest }) ∧
  (∀ (s : State) (w : Nat) (i : Instr), Accepting s → decode (BitVec.ofNat 32 w) = .ok i →
    step (s.withFetchWord 32 w) = exec i s)

/-- With no event presented the step holds the state. While FAULT = 1 every word is discarded and nothing but the port changes.
While FAULT = 0 a word that is no command writes IllegalCommand to ERR and changes nothing else. The port is the model's own
(log entry 2). (60_exceptions.md section 2, 60_exceptions.md section 3) -/
def Obligations.StepHoldsDiscardsOrReportsIllegalWords : Prop :=
  (∀ s : State, s.port = [] → step s = .next s) ∧
  (∀ (s : State) (w : Word) (rest : List HostEvent), s.port = .command w :: rest → s.fault = true →
    step s = .next { s with port := rest }) ∧
  (∀ (s : State) (w : Word) (rest : List HostEvent) (e : DecodeError), s.port = .command w :: rest → Accepting s →
    decode w = .error e → step s = .next { s with port := rest, err := .failed .illegalCommand })

/-- The five worked words of 30_encoding.md section 5 and the worked words of one command of every other unit decode to the
commands the spec gives. (30_encoding.md section 5, 42_rs.md section 3, 46_matrix.md section 5, 48_bch.md section 2) -/
def Obligations.WrittenOutWordsDecode : Prop :=
  decode 0x1000FFFF#32 = .ok (.gexp (-1#16)) ∧ decode 0x2101001D#32 = .ok (.ppush .pb 0x1D#8) ∧
  decode 0x51040004#32 = .ok (.bbput 4#8 4#16) ∧ decode 0xA1001400#32 = .ok (.isdark 20#8 0#8) ∧
  decode 0x41000001#32 = .ok (.setvl .m 1#8) ∧ decode 0x30000002#32 = .ok (.rsgen 2#8) ∧
  decode 0x60000000#32 = .ok .split ∧ decode 0x75000204#32 = .ok (.maskq 0#8 2#8 4#8) ∧
  decode 0x80000000#32 = .ok .mxpen ∧ decode 0x90000003#32 = .ok (.bchfmt 3#8)

/-- For each of the 32 operation codes: every word of that code whose unused fields are zero and whose operands lie in their
ranges decodes to the command with those operands, and on every other word of that code an accepting core reports
IllegalCommand and changes nothing else. The operands imm16 of GEXP and BBPUT are b and c read together, b the high byte. On
every word of any other operation code it reports IllegalCommand too; there are 224 such codes. (R64, R66) -/
def Obligations.CommandMapOfThirtyTwoRows : Prop :=
  EncodedAs 0x00#8 (fun f => f.a ≠ 0#8 ∨ f.b ≠ 0#8 ∨ f.c ≠ 0#8) (fun _ => .nop) ∧
  EncodedAs 0x10#8 (fun f => f.a ≠ 0#8) (fun f => .gexp (f.b ++ f.c)) ∧
  EncodedAs 0x11#8 (fun f => f.a ≠ 0#8 ∨ f.b ≠ 0#8) (fun f => .glog f.c) ∧
  EncodedAs 0x20#8 (fun f => 2 < f.a.toNat ∨ f.b ≠ 0#8 ∨ f.c ≠ 0#8) (fun f => .pclr (regOf f.a)) ∧
  EncodedAs 0x21#8 (fun f => 2 < f.a.toNat ∨ f.b ≠ 0#8) (fun f => .ppush (regOf f.a) f.c) ∧
  EncodedAs 0x22#8 (fun f => f.a ≠ 0#8 ∨ f.b ≠ 0#8 ∨ f.c ≠ 0#8) (fun _ => .pmul) ∧
  EncodedAs 0x23#8 (fun f => f.a ≠ 0#8 ∨ f.b ≠ 0#8 ∨ f.c ≠ 0#8) (fun _ => .pmod) ∧
  EncodedAs 0x30#8 (fun f => f.a ≠ 0#8 ∨ f.b ≠ 0#8) (fun f => .rsgen f.c) ∧
  EncodedAs 0x31#8 (fun f => f.a ≠ 0#8 ∨ f.b ≠ 0#8 ∨ f.c ≠ 0#8) (fun _ => .dbrst) ∧
  EncodedAs 0x32#8 (fun f => f.a ≠ 0#8 ∨ f.b ≠ 0#8) (fun f => .dbpush f.c) ∧
  EncodedAs 0x33#8 (fun f => f.a ≠ 0#8 ∨ f.b ≠ 0#8) (fun f => .rsenc f.c) ∧
  EncodedAs 0x40#8 (fun f => 3 < f.a.toNat ∨ f.b ≠ 0#8 ∨ f.c ≠ 0#8) (fun f => .vsel (levelOf f.a)) ∧
  EncodedAs 0x41#8 (fun f => 3 < f.a.toNat ∨ f.b ≠ 0#8 ∨ f.c = 0#8 ∨ 40 < f.c.toNat) (fun f => .setvl (levelOf f.a) f.c) ∧
  EncodedAs 0x50#8 (fun f => f.a ≠ 0#8 ∨ f.b ≠ 0#8 ∨ f.c ≠ 0#8) (fun _ => .bbrst) ∧
  EncodedAs 0x51#8 (fun f => 16 < f.a.toNat) (fun f => .bbput f.a (f.b ++ f.c)) ∧
  EncodedAs 0x52#8 (fun f => f.a ≠ 0#8 ∨ f.b ≠ 0#8 ∨ f.c ≠ 0#8) (fun _ => .bbenc) ∧
  EncodedAs 0x60#8 (fun f => f.a ≠ 0#8 ∨ f.b ≠ 0#8 ∨ f.c ≠ 0#8) (fun _ => .split) ∧
  EncodedAs 0x70#8 (fun f => f.a ≠ 0#8 ∨ f.b ≠ 0#8 ∨ f.c ≠ 0#8) (fun _ => .mxrst) ∧
  EncodedAs 0x71#8 (fun f => f.a ≠ 0#8 ∨ f.b ≠ 0#8 ∨ f.c ≠ 0#8) (fun _ => .mxpat) ∧
  EncodedAs 0x72#8 (fun f => f.a ≠ 0#8 ∨ f.b ≠ 0#8 ∨ f.c ≠ 0#8) (fun _ => .mxrsv) ∧
  EncodedAs 0x73#8 (fun f => f.a ≠ 0#8 ∨ f.b ≠ 0#8 ∨ 7 < f.c.toNat) (fun f => .mxmap f.c) ∧
  EncodedAs 0x74#8 (fun f => f.a ≠ 0#8 ∨ f.b ≠ 0#8 ∨ f.c ≠ 0#8) (fun _ => .mxfin) ∧
  EncodedAs 0x75#8 (fun f => 7 < f.a.toNat) (fun f => .maskq f.a f.b f.c) ∧
  EncodedAs 0x80#8 (fun f => f.a ≠ 0#8 ∨ f.b ≠ 0#8 ∨ f.c ≠ 0#8) (fun _ => .mxpen) ∧
  EncodedAs 0x81#8 (fun f => f.a ≠ 0#8 ∨ f.b ≠ 0#8 ∨ f.c ≠ 0#8) (fun _ => .mxbest) ∧
  EncodedAs 0x90#8 (fun f => f.a ≠ 0#8 ∨ f.b ≠ 0#8 ∨ 31 < f.c.toNat) (fun f => .bchfmt f.c) ∧
  EncodedAs 0x91#8 (fun f => f.a ≠ 0#8 ∨ f.b ≠ 0#8 ∨ 63 < f.c.toNat) (fun f => .bchver f.c) ∧
  EncodedAs 0xA0#8 (fun f => 3 < f.a.toNat ∨ f.b ≠ 0#8 ∨ f.c ≠ 0#8) (fun f => .gen (levelOf f.a)) ∧
  EncodedAs 0xA1#8 (fun f => f.a ≠ 0#8) (fun f => .isdark f.b f.c) ∧
  EncodedAs 0xA2#8 (fun f => f.a ≠ 0#8 ∨ f.b ≠ 0#8 ∨ f.c ≠ 0#8) (fun _ => .modcnt) ∧
  EncodedAs 0xA3#8 (fun f => f.a ≠ 0#8 ∨ f.b ≠ 0#8 ∨ f.c ≠ 0#8) (fun _ => .plrst) ∧
  EncodedAs 0xA4#8 (fun f => f.a ≠ 0#8 ∨ f.b ≠ 0#8) (fun f => .plpush f.c) ∧
  (∀ (w : Word) (s : State), Accepting s → (∀ row ∈ encodingTable, row.op ≠ (fieldsOf w).op) →
    acceptWord exec w s = turnedAway .illegalCommand s) ∧
  ((List.range 256).filter (fun n => (encodingTable.all (fun row => row.op.toNat != n)))).length = 224

/-- For every well-formed instruction, with every operand at every value its encoding admits, decode of encode is that
instruction: no bit of an encoding is dropped. (30_encoding.md section 3, 30_encoding.md section 4) -/
def Obligations.EncodeThenDecodeIsIdentity : Prop :=
  ∀ i : Instr, i.wellFormed = true → decode (encode i) = .ok i

/-- Every word either decodes, and then to the one well-formed command whose encoding it is, or is refused, and then it is the
encoding of no well-formed command; and no word has the match bits of two rows of the command map. (30_encoding.md section 4
(decoding is total; derived there)) -/
def Obligations.EveryWordIsOneCommandOrIllegal : Prop :=
  (∀ w : Word,
    (∃ i, decode w = .ok i ∧ i.wellFormed = true ∧ encode i = w ∧
      ∀ j : Instr, j.wellFormed = true → encode j = w → j = i) ∨
    (∃ e, decode w = .error e ∧ ∀ j : Instr, j.wellFormed = true → encode j ≠ w)) ∧
  (∀ r ∈ encodingTable, ∀ r' ∈ encodingTable, ∀ w : Word,
    w &&& r.format.mask = r.matchWord → w &&& r'.format.mask = r'.matchWord → r = r')

/-- On every word an accepting core is presented with: if the outcome is a recoverable error, its code is 0x01 to 0x04, the whole
state but ERR is as before, and FAULT stays 0, so that the next word is decoded and run; and an outcome that is no error is
ERR = 0. The ERR that stood before a word does not matter: the core answers the word in the same way, and with the same next
state, whatever ERR held, so that every command writes ERR. (R212) -/
def Obligations.RecoverableErrorWritesErrAlone : Prop :=
  (∀ (w : Word) (s t : State), Accepting s → acceptWord exec w s = .next t →
    (∀ e, t.err = .failed e → isFatal e = false →
      t = { s with err := .failed e } ∧ Accepting t ∧ 1 ≤ (statusCode t.err).toNat ∧ (statusCode t.err).toNat ≤ 4) ∧
    ((∀ e, t.err ≠ .failed e) → t.err = .ok ∧ statusCode t.err = 0#8 ∧ Accepting t)) ∧
  (∀ (w : Word) (s : State) (before : Status), Accepting s →
    acceptWord exec w { s with err := before } = acceptWord exec w s)

/-- On every word an accepting core is presented with: if the outcome is a fatal error, its code is 0x80 or 0x81 and the whole
state but ERR and FAULT is as before, FAULT being 1. While FAULT = 1 every word, and every command, leaves the state as it
is, ERR included, and a step clears FAULT only where the host asserts reset. The host's reads are functions of the state and
work as before. (R214) -/
def Obligations.FatalErrorStopsTheCoreUntilReset : Prop :=
  (∀ (w : Word) (s t : State) (e : ErrorCode), Accepting s → acceptWord exec w s = .next t → t.err = .failed e →
    isFatal e = true →
    t = { s with err := .failed e, fault := true } ∧ (statusCode t.err = 0x80#8 ∨ statusCode t.err = 0x81#8)) ∧
  (∀ (w : Word) (s : State), s.fault = true → acceptWord exec w s = .next s) ∧
  (∀ (i : Instr) (s : State), s.fault = true → exec i s = .next s) ∧
  (∀ s t : State, s.fault = true → step s = .next t →
    (t.fault = true ∧ t = { s with port := t.port }) ∨ (∃ rest, s.port = .reset :: rest ∧ t.fault = false))

/-- In every state that meets the register and shape invariants: a command reports CapacityExceeded only as VSEL or GEN with a
payload over the version-40 capacity, Overflow only as BBENC with a payload that does not fit, MalformedMatrixAccess only as
ISDARK outside the matrix, GlogZero only as GLOG 0, PMUL, PMOD or RSENC on their conditions, and InvalidLookup never; every
other error is IllegalCommand. Conversely each condition, where no earlier check fails, makes its command report its error.
(R211) -/
def Obligations.ErrorsComeFromTheirCommandsAndConditions : Prop :=
  (∀ (i : Instr) (s t : State) (e : ErrorCode), CoreOk s → Accepting s → exec i s = .next t → t.err = .failed e →
    e = .illegalCommand ∨
    (e = .capacityExceeded ∧ ∃ lvl, (i = .vsel lvl ∨ i = .gen lvl) ∧ TooLong lvl s) ∨
    (e = .overflow ∧ i = .bbenc ∧ DoesNotFit s) ∨
    (e = .malformedMatrixAccess ∧ ∃ row col, i = .isdark row col ∧ (s.n.toNat ≤ row.toNat ∨ s.n.toNat ≤ col.toNat)) ∨
    (e = .glogZero ∧ (i = .glog 0#8 ∨ (i = .pmul ∧ ProductFaults s) ∨ (i = .pmod ∧ RemainderFaults s) ∨
      ∃ ec, i = .rsenc ec ∧ ParityFaults ec s))) ∧
  (∀ s : State, CoreOk s → Accepting s →
    (∀ lvl, TooLong lvl s → exec (.vsel lvl) s = turnedAway .capacityExceeded s ∧
      exec (.gen lvl) s = turnedAway .capacityExceeded s) ∧
    (s.ver ≠ 0#6 → DoesNotFit s → exec .bbenc s = turnedAway .overflow s) ∧
    (∀ row col : Byte, s.stage = .final → s.n.toNat ≤ row.toNat ∨ s.n.toNat ≤ col.toNat →
      exec (.isdark row col) s = turnedAway .malformedMatrixAccess s) ∧
    exec (.glog 0#8) s = stuckWith .glogZero s ∧
    (ProductFaults s → exec .pmul s = stuckWith .glogZero s) ∧
    (RemainderFaults s → exec .pmod s = stuckWith .glogZero s) ∧
    (∀ ec, ParityFaults ec s → exec (.rsenc ec) s = stuckWith .glogZero s))

/-- VSEL and GEN report CapacityExceeded, with ERR = 0x01 and nothing else changed, exactly where the payload is longer than 2953
bytes at L, 2331 at M, 1663 at Q, 1273 at H; at the threshold and below they succeed. (R217) -/
def Obligations.CapacityThresholdsOfVselAndGen : Prop :=
  errorCode .capacityExceeded = 0x01#8 ∧
  ∀ (s : State) (lvl : Level) (limit : Nat), Accepting s →
    (lvl, limit) ∈ [(Level.l, 2953), (Level.m, 2331), (Level.q, 1663), (Level.h, 1273)] →
    (limit < s.payload.length →
      exec (.vsel lvl) s = turnedAway .capacityExceeded s ∧ exec (.gen lvl) s = turnedAway .capacityExceeded s) ∧
    (s.payload.length ≤ limit →
      (∃ t, exec (.vsel lvl) s = .next t ∧ t.err = .ok) ∧ (∃ t, exec (.gen lvl) s = .next t ∧ t.err = .ok))

/-- With a version selected, BBENC reports Overflow, ERR = 0x02, and changes nothing else where the payload does not fit; GEN
reports Overflow in no state. With a finished symbol, ISDARK with a row or column not below N reports MalformedMatrixAccess,
ERR = 0x03, and changes nothing else; the same query then reports the same again, and every query inside the matrix then
answers as it would have before. (R218, R219) -/
def Obligations.OverflowAndBadQueriesDisturbNothing : Prop :=
  errorCode .overflow = 0x02#8 ∧ errorCode .malformedMatrixAccess = 0x03#8 ∧
  (∀ s : State, Accepting s → VersionSelected s → DoesNotFit s → exec .bbenc s = turnedAway .overflow s) ∧
  (∀ (lvl : Level) (s t : State), Accepting s → exec (.gen lvl) s = .next t → t.err ≠ .failed .overflow) ∧
  ∀ (s : State) (row col : Byte), Accepting s → s.stage = .final → s.n.toNat ≤ row.toNat ∨ s.n.toNat ≤ col.toNat →
    ∃ t, exec (.isdark row col) s = .next t ∧ t = { s with err := .failed .malformedMatrixAccess } ∧
      exec (.isdark row col) t = .next t ∧
      ∀ row' col' : Byte, row'.toNat < s.n.toNat → col'.toNat < s.n.toNat →
        exec (.isdark row' col') t = exec (.isdark row' col') s ∧ ∃ u, exec (.isdark row' col') t = .next u ∧ u.err = .ok

/-- For every command and state: where the outcome is a recoverable error, issuing the same command on the state it left answers
that same state, the same error in ERR. (60_exceptions.md section 4 (no internal retry)) -/
def Obligations.RecoverableErrorsRepeatUntilTheStateChanges : Prop :=
  ∀ (i : Instr) (s t : State) (e : ErrorCode), Accepting s → exec i s = .next t → t.err = .failed e →
    isFatal e = false → exec i t = .next t

/-- MXPAT outside EMPTY, MXRSV outside PATTERNS, MXMAP outside RESERVED, MXFIN outside MAPPED, MXPEN outside MAPPED and FINAL and
ISDARK outside FINAL report IllegalCommand and change nothing else, whatever their operands; so do BBENC, SPLIT, MXRST and
MXBEST while VER = 0; and so do, given as instructions, SETVL with version 0 or above 40, BBPUT of more than 16 bits, MXMAP
and MASKQ with a mask above 7, BCHFMT of more than 31 and BCHVER of more than 63. (46_matrix.md section 1, 60_exceptions.md
section 2, 60_exceptions.md section 3) -/
def Obligations.BadOperandsStagesAndMissingVersionsAreTurnedAway : Prop :=
  ∀ s : State, Accepting s →
    (s.stage ≠ .empty → exec .mxpat s = turnedAway .illegalCommand s) ∧
    (s.stage ≠ .patterns → exec .mxrsv s = turnedAway .illegalCommand s) ∧
    (s.stage ≠ .reserved → ∀ k, exec (.mxmap k) s = turnedAway .illegalCommand s) ∧
    (s.stage ≠ .mapped → exec .mxfin s = turnedAway .illegalCommand s) ∧
    (s.stage ≠ .mapped → s.stage ≠ .final → exec .mxpen s = turnedAway .illegalCommand s) ∧
    (s.stage ≠ .final → ∀ row col, exec (.isdark row col) s = turnedAway .illegalCommand s) ∧
    (s.ver = 0#6 → exec .bbenc s = turnedAway .illegalCommand s ∧ exec .split s = turnedAway .illegalCommand s ∧
      exec .mxrst s = turnedAway .illegalCommand s ∧ exec .mxbest s = turnedAway .illegalCommand s) ∧
    (∀ lvl (v : Byte), v = 0#8 ∨ 40 < v.toNat → exec (.setvl lvl v) s = turnedAway .illegalCommand s) ∧
    (∀ (n : Byte) val, 16 < n.toNat → exec (.bbput n val) s = turnedAway .illegalCommand s) ∧
    (∀ k : Byte, 7 < k.toNat → exec (.mxmap k) s = turnedAway .illegalCommand s) ∧
    (∀ k row col : Byte, 7 < k.toNat → exec (.maskq k row col) s = turnedAway .illegalCommand s) ∧
    (∀ d : Byte, 31 < d.toNat → exec (.bchfmt d) s = turnedAway .illegalCommand s) ∧
    (∀ v : Byte, 63 < v.toNat → exec (.bchver v) s = turnedAway .illegalCommand s)

/-- For every command and state: VER and ECL change only by VSEL, SETVL, GEN; MASK by MXMAP, MXBEST, GEN; N by MXRST, MXBEST,
GEN, VSEL, SETVL; BESTPEN by MXBEST, GEN; RES by the nine value-returning commands; PAYLOAD by PLRST, PLPUSH; PA and PB by
PCLR, PPUSH; PR by PCLR, PPUSH, PMUL, PMOD, RSGEN; DB by DBRST, DBPUSH; ECB by RSENC; BB by BBRST, BBPUT, BBENC, GEN; CW by
SPLIT, GEN; STAGE by the matrix commands, MXBEST, GEN, VSEL, SETVL, and MX by the same: that VSEL and SETVL empty MX as they
write N = 0 is the model's deduction (log entry 4), not among the writers 10_state.md lists for MX. No command changes the
parameters or the port (log entries 1 and 2). (10_state.md section 2, 10_state.md section 3, 20_memory.md section 1) -/
def Obligations.OnlyItsWritersChangeARegister : Prop :=
  ∀ (i : Instr) (s t : State), exec i s = .next t →
    t.cfg = s.cfg ∧ t.port = s.port ∧
    (t.ver ≠ s.ver ∨ t.ecl ≠ s.ecl → ∃ lvl, i = .vsel lvl ∨ (∃ v, i = .setvl lvl v) ∨ i = .gen lvl) ∧
    (t.mask ≠ s.mask → (∃ k, i = .mxmap k) ∨ i = .mxbest ∨ ∃ lvl, i = .gen lvl) ∧
    (t.n ≠ s.n → i = .mxrst ∨ i = .mxbest ∨ ∃ lvl, i = .gen lvl ∨ i = .vsel lvl ∨ ∃ v, i = .setvl lvl v) ∧
    (t.bestpen ≠ s.bestpen → i = .mxbest ∨ ∃ lvl, i = .gen lvl) ∧
    (t.res ≠ s.res → (∃ n, i = .gexp n) ∨ (∃ n, i = .glog n) ∨ (∃ lvl, i = .vsel lvl) ∨
      (∃ k row col, i = .maskq k row col) ∨ i = .mxpen ∨ (∃ d, i = .bchfmt d) ∨ (∃ v, i = .bchver v) ∨
      (∃ row col, i = .isdark row col) ∨ i = .modcnt) ∧
    (t.payload ≠ s.payload → i = .plrst ∨ ∃ v, i = .plpush v) ∧
    (t.pa ≠ s.pa → i = .pclr .pa ∨ ∃ v, i = .ppush .pa v) ∧
    (t.pb ≠ s.pb → i = .pclr .pb ∨ ∃ v, i = .ppush .pb v) ∧
    (t.pr ≠ s.pr → i = .pclr .pr ∨ (∃ v, i = .ppush .pr v) ∨ i = .pmul ∨ i = .pmod ∨ ∃ ec, i = .rsgen ec) ∧
    (t.db ≠ s.db → i = .dbrst ∨ ∃ v, i = .dbpush v) ∧
    (t.ecb ≠ s.ecb → ∃ ec, i = .rsenc ec) ∧
    (t.bb ≠ s.bb → i = .bbrst ∨ (∃ n val, i = .bbput n val) ∨ i = .bbenc ∨ ∃ lvl, i = .gen lvl) ∧
    (t.cw ≠ s.cw → i = .split ∨ ∃ lvl, i = .gen lvl) ∧
    (t.mx ≠ s.mx ∨ t.stage ≠ s.stage → i = .mxrst ∨ i = .mxpat ∨ i = .mxrsv ∨ (∃ k, i = .mxmap k) ∨ i = .mxfin ∨
      i = .mxbest ∨ ∃ lvl, i = .gen lvl ∨ i = .vsel lvl ∨ ∃ v, i = .setvl lvl v)

/-- In every state the host reads EXP[i] = 2^i for i below 8, EXP[i] = EXP[i-4] xor EXP[i-5] xor EXP[i-6] xor EXP[i-8] for i of
8..254, LOG[EXP[i]] = i for i of 0..254, and every n of 1..255 is EXP of exactly one i; EXP[255] and LOG[0] name no element
(log entry 10). (40_gf.md section 1, 20_memory.md section 1) -/
def Obligations.HostReadsExpAndLogTables : Prop :=
  ∀ s : State,
    (∀ i < 8, readElement .exp i s = some (2 ^ i)) ∧
    (∀ i < 255, 8 ≤ i → ∃ a b c d, readElement .exp (i - 4) s = some a ∧ readElement .exp (i - 5) s = some b ∧
      readElement .exp (i - 6) s = some c ∧ readElement .exp (i - 8) s = some d ∧
      readElement .exp i s = some (a ^^^ b ^^^ c ^^^ d)) ∧
    (∀ i < 255, ∃ n, readElement .exp i s = some n ∧ readElement .log n s = some i) ∧
    (∀ n < 256, 1 ≤ n → ∃ i < 255, readElement .exp i s = some n ∧
      ∀ j, readElement .exp j s = some n → j = i) ∧
    readElement .exp 255 s = none ∧ readElement .log 0 s = none

/-- For every integer n, Gexp(n) is EXP[r] for the one r of 0..254 that differs from n by a multiple of 255, and is not 0; Glog
undoes Gexp on 0..254, and Gexp undoes Glog on every non-zero byte. (40_gf.md section 2) -/
def Obligations.ExponentReductionIsTheFlooredRemainder : Prop :=
  (∀ n : Int, ∃ r : Nat, r < 255 ∧ (∃ k : Int, n = r + 255 * k) ∧ gexp n = expEntry r ∧ gexp n ≠ 0#8 ∧
    glog (gexp n) = .ok r ∧ ∀ r' : Nat, r' < 255 → (∃ k : Int, n = r' + 255 * k) → r' = r) ∧
  (∀ n : Byte, n ≠ 0#8 → ∃ l, glog n = .ok l ∧ gexp (l : Int) = n)

/-- GEXP succeeds for every operand in every accepting state: RES becomes the byte Gexp(n) zero-extended, n read as a signed
16-bit number, ERR becomes 0, and nothing else changes. Its words are op 0x10 with a = 0; a word of that op with a non-zero a
is illegal. (R85) -/
def Obligations.GexpWritesTheExponentOfItsSignedOperand : Prop :=
  (∀ (n : BitVec 16) (s : State), Accepting s →
    exec (.gexp n) s = .next { s with res := (gexp n.toInt).setWidth 32, err := .ok }) ∧
  EncodedAs 0x10#8 (fun f => f.a ≠ 0#8) (fun f => .gexp (f.b ++ f.c))

/-- GLOG of a non-zero operand writes LOG[n] to RES and 0 to ERR and changes nothing else; GLOG 0 raises the fatal GlogZero,
writing ERR = 0x80 and FAULT alone. Glog itself is LOG[n], a value of 0..254, on every non-zero byte and raises GlogZero on
0. Its words are op 0x11 with a = b = 0. (R83, R86) -/
def Obligations.GlogWritesTheLogarithmOrStopsTheCore : Prop :=
  (∀ (n : Byte) (s : State), Accepting s → n ≠ 0#8 →
    exec (.glog n) s = .next { s with res := BitVec.ofNat 32 (logEntry n), err := .ok }) ∧
  (∀ s : State, Accepting s → exec (.glog 0#8) s = stuckWith .glogZero s) ∧
  glog 0#8 = .error .glogZero ∧ isFatal .glogZero = true ∧ errorCode .glogZero = 0x80#8 ∧
  (∀ n : Byte, n ≠ 0#8 → glog n = .ok (logEntry n) ∧ logEntry n ≤ 254) ∧
  EncodedAs 0x11#8 (fun f => f.a ≠ 0#8 ∨ f.b ≠ 0#8) (fun f => .glog f.c)

/-- NOP writes ERR = 0 and nothing else; PLRST, DBRST and BBRST empty the payload, the data-block buffer and the bit buffer,
write ERR = 0 and change nothing else; MODCNT writes N, zero-extended, to RES and 0 to ERR and nothing else, in every stage.
Each has the one word of its op with all other fields zero; every other word of the op is illegal. (R200, R201, R103, R122) -/
def Obligations.NopModcntAndClearsAlwaysComplete : Prop :=
  (∀ s : State, Accepting s →
    exec .nop s = .next { s with err := .ok } ∧
    exec .plrst s = .next { s with payload := [], err := .ok } ∧
    exec .dbrst s = .next { s with db := [], err := .ok } ∧
    exec .bbrst s = .next { s with bb := [], err := .ok } ∧
    exec .modcnt s = .next { s with res := s.n.setWidth 32, err := .ok }) ∧
  (∀ op i, (op, i) ∈ [(0x00#8, Instr.nop), (0xA3#8, Instr.plrst), (0x31#8, Instr.dbrst), (0x50#8, Instr.bbrst),
      (0xA2#8, Instr.modcnt)] →
    EncodedAs op (fun f => f.a ≠ 0#8 ∨ f.b ≠ 0#8 ∨ f.c ≠ 0#8) (fun _ => i))

/-- PCLR succeeds for each of the three registers in every accepting state: that register becomes empty, ERR becomes 0, the other
two and all else stay. With fewer than 65535 coefficients in P[r], PPUSH r, v makes it Strip(P[r] ++ [v]) and changes nothing
else but ERR; on a register that already has coefficients and is canonical that is v appended, and on an empty one it is [v],
or empty for v = 0. A register of 65535 coefficients makes it report IllegalCommand and change nothing else. Their words are
op 0x20 with a of 0..2 and b = c = 0, and op 0x21 with a of 0..2 and b = 0. (R93, R94) -/
def Obligations.PclrEmptiesAndPpushAppendsAndStrips : Prop :=
  (∀ s : State, Accepting s →
    exec (.pclr .pa) s = .next { s with pa := [], err := .ok } ∧
    exec (.pclr .pb) s = .next { s with pb := [], err := .ok } ∧
    exec (.pclr .pr) s = .next { s with pr := [], err := .ok }) ∧
  (∀ (r : PolyReg) (v : Byte) (s : State), Accepting s → (readPoly r s).length < 65535 →
    ∃ t, exec (.ppush r v) s = .next t ∧ t = { writePoly r (strip (readPoly r s ++ [v])) s with err := .ok } ∧
      readPoly r t = strip (readPoly r s ++ [v]) ∧
      (readPoly r s ≠ [] → Canonical (readPoly r s) → readPoly r t = readPoly r s ++ [v]) ∧
      (readPoly r s = [] → readPoly r t = if v = 0#8 then [] else [v])) ∧
  (∀ (r : PolyReg) (v : Byte) (s : State), Accepting s → (readPoly r s).length = 65535 →
    exec (.ppush r v) s = turnedAway .illegalCommand s) ∧
  EncodedAs 0x20#8 (fun f => 2 < f.a.toNat ∨ f.b ≠ 0#8 ∨ f.c ≠ 0#8) (fun f => .pclr (regOf f.a)) ∧
  EncodedAs 0x21#8 (fun f => 2 < f.a.toNat ∨ f.b ≠ 0#8) (fun f => .ppush (regOf f.a) f.c)

/-- With fewer than 65535 bytes in the buffer, DBPUSH and PLPUSH append their byte at the end of DB and PAYLOAD, whatever the
byte, write ERR = 0 and change nothing else; a full buffer makes them report IllegalCommand and change nothing else. Their
words are op 0x32 and 0xA4 with a = b = 0. (R104, R202) -/
def Obligations.BytePushesAppendAtTheEnd : Prop :=
  (∀ (v : Byte) (s : State), Accepting s →
    (s.db.length < 65535 → exec (.dbpush v) s = .next { s with db := s.db ++ [v], err := .ok }) ∧
    (s.db.length = 65535 → exec (.dbpush v) s = turnedAway .illegalCommand s) ∧
    (s.payload.length < 65535 → exec (.plpush v) s = .next { s with payload := s.payload ++ [v], err := .ok }) ∧
    (s.payload.length = 65535 → exec (.plpush v) s = turnedAway .illegalCommand s)) ∧
  EncodedAs 0x32#8 (fun f => f.a ≠ 0#8 ∨ f.b ≠ 0#8) (fun f => .dbpush f.c) ∧
  EncodedAs 0xA4#8 (fun f => f.a ≠ 0#8 ∨ f.b ≠ 0#8) (fun f => .plpush f.c)

/-- With n at most 16 and room for n bits, BBPUT succeeds: the buffer grows by n bits, bit L + i is bit n - 1 - i of the value
for each i below n, L the old length; every old bit stays, ERR becomes 0 and nothing else changes. Without room it reports
IllegalCommand and changes nothing else. (R42) -/
def Obligations.BbputAppendsMostSignificantBitFirst : Prop :=
  (∀ (n : Byte) (val : BitVec 16) (s : State), Accepting s → n.toNat ≤ 16 → s.bb.length + n.toNat ≤ 65535 →
    ∃ bits, exec (.bbput n val) s = .next { s with bb := bits, err := .ok } ∧
      bits.length = s.bb.length + n.toNat ∧
      (∀ i < n.toNat, bits[s.bb.length + i]? = some (val.getLsbD (n.toNat - 1 - i))) ∧
      (∀ j < s.bb.length, bits[j]? = s.bb[j]?)) ∧
  (∀ (n : Byte) (val : BitVec 16) (s : State), Accepting s → n.toNat ≤ 16 → 65535 < s.bb.length + n.toNat →
    exec (.bbput n val) s = turnedAway .illegalCommand s)

/-- PMUL completes where an operand is empty, PR becoming empty, and where both are non-empty, have no zero coefficient and a
product of at most 65535 coefficients: PR then has len(PA) + len(PB) - 1 coefficients, coefficient k the XOR of
Gexp(Glog(a_i) + Glog(b_j)) over all i + j = k, and nothing else but ERR changes. An over-long product reports IllegalCommand
before any coefficient is looked at. (41_poly.md section 2, 41_poly.md section 3) -/
def Obligations.PmulWritesTheProductOfPaAndPb : Prop :=
  ∀ s : State, Accepting s →
    (s.pa = [] ∨ s.pb = [] → exec .pmul s = .next { s with pr := [], err := .ok }) ∧
    (s.pa ≠ [] → s.pb ≠ [] → NoZero s.pa → NoZero s.pb → s.pa.length + s.pb.length - 1 ≤ 65535 →
      ∃ p, exec .pmul s = .next { s with pr := p, err := .ok } ∧
        p.length = s.pa.length + s.pb.length - 1 ∧ Canonical p ∧
        ∀ k < p.length, p[k]? = some (productCoefficient s.pa s.pb k)) ∧
    (s.pa ≠ [] → s.pb ≠ [] → 65535 < s.pa.length + s.pb.length - 1 → exec .pmul s = turnedAway .illegalCommand s)

/-- With PB non-empty, no zero coefficient in PB and PA canonical, PMOD completes: PR is shorter than PB and canonical, PA is a
multiple of PB plus PR (PR aligned at the low-order end), and nothing else but ERR changes. Where PA is shorter than PB, PR
is PA, zero coefficients in PB or not. (41_poly.md section 2, 41_poly.md section 3) -/
def Obligations.PmodWritesTheRemainderOfPaByPb : Prop :=
  ∀ s : State, Accepting s →
    (Canonical s.pa → s.pb ≠ [] → NoZero s.pb → s.pb.length ≤ s.pa.length →
      ∃ r q, exec .pmod s = .next { s with pr := r, err := .ok } ∧ r.length < s.pb.length ∧ Canonical r ∧
        (timesRows q s.pb).length = s.pa.length ∧
        s.pa = xorAll (timesRows q s.pb) (zeros (s.pa.length - r.length) ++ r)) ∧
    (s.pa.length < s.pb.length → exec .pmod s = .next { s with pr := s.pa, err := .ok })

/-- RSGEN succeeds for every operand in every accepting state: PR becomes Generator(ec), which exists, has ec + 1 coefficients
and the leading coefficient 1; ERR becomes 0 and nothing else changes. Generator(0) is [1]; for ec below 255 Generator(ec)
has no zero coefficient and Generator(ec + 1) is, coefficient by coefficient, its product with [1, Gexp(ec)]; Generator(255)
is 1, 254 zeros, 1. Its words are op 0x30 with a = b = 0. (R102) -/
def Obligations.RsgenWritesTheGeneratorForEveryCount : Prop :=
  (∀ (ec : Byte) (s : State), Accepting s →
    ∃ g, generator ec.toNat = .ok g ∧ exec (.rsgen ec) s = .next { s with pr := g, err := .ok } ∧
      g.length = ec.toNat + 1 ∧ g.head? = some 1#8) ∧
  generator 0 = .ok [1#8] ∧
  (∀ ec < 255, ∃ g g', generator ec = .ok g ∧ generator (ec + 1) = .ok g' ∧ NoZero g ∧ g'.length = ec + 2 ∧
    ∀ k < ec + 2, g'[k]? = some (productCoefficient g [1#8, gexp (ec : Int)] k)) ∧
  generator 255 = .ok ([1#8] ++ zeros 254 ++ [1#8]) ∧
  EncodedAs 0x30#8 (fun f => f.a ≠ 0#8 ∨ f.b ≠ 0#8) (fun f => .rsgen f.c)

/-- Where the data and ec together are at most 65535 and it is not ec = 255 with a non-zero data byte, RSENC completes: ECB
becomes RsEncode(DB, ec), exactly ec bytes, ERR becomes 0 and nothing else changes. An over-long block reports
IllegalCommand; ec = 255 with a non-zero byte raises the fatal GlogZero. Its words are op 0x33 with a = b = 0. (R105) -/
def Obligations.RsencWritesExactlyEcParityBytes : Prop :=
  (∀ (ec : Byte) (s : State), Accepting s → s.db.length + ec.toNat ≤ 65535 → ¬ ParityFaults ec s →
    ∃ e, rsEncode s.db ec.toNat = .ok e ∧ exec (.rsenc ec) s = .next { s with ecb := e, err := .ok } ∧
      e.length = ec.toNat) ∧
  (∀ (ec : Byte) (s : State), Accepting s → 65535 < s.db.length + ec.toNat →
    exec (.rsenc ec) s = turnedAway .illegalCommand s) ∧
  (∀ (ec : Byte) (s : State), Accepting s → ParityFaults ec s → exec (.rsenc ec) s = stuckWith .glogZero s) ∧
  EncodedAs 0x33#8 (fun f => f.a ≠ 0#8 ∨ f.b ≠ 0#8) (fun f => .rsenc f.c)

/-- For every data sequence and every ec up to 254: RsEncode answers exactly ec bytes, the data followed by them is, as a
polynomial, a multiple of Generator(ec), and a zero byte put before the data changes no parity byte. (42_rs.md section 2) -/
def Obligations.DataWithParityIsAMultipleOfTheGenerator : Prop :=
  ∀ (d : List Byte) (ec : Nat), ec ≤ 254 →
    ∃ g e, generator ec = .ok g ∧ rsEncode d ec = .ok e ∧ e.length = ec ∧
      (∃ q, q.length = d.length ∧ timesRows q g = d ++ e) ∧ rsEncode (0#8 :: d) ec = .ok e

/-- Where the payload is not over the version-40 capacity, VSEL completes: the version it writes is in 1..40, holds the payload,
and no smaller version does; VER, ECL, STAGE = NONE, N = 0, RES and ERR are written, no matrix cell remains (the empty MX is
log entry 4), and nothing else changes. A payload over it reports CapacityExceeded and changes nothing else. For every level
and every version of 1..40 SETVL completes in every accepting state and writes the same but RES, VER being its operand.
(43_version_select.md section 1, 43_version_select.md section 2) -/
def Obligations.VselPicksTheSmallestVersionSetvlTheGivenOne : Prop :=
  ∀ (lvl : Level) (s : State), Accepting s →
    (¬ TooLong lvl s → ∃ v, 1 ≤ v ∧ v ≤ 40 ∧
      (∃ cap, capacity v lvl = .ok cap ∧ s.payload.length ≤ cap) ∧
      (∀ u, 1 ≤ u → u < v → ∃ cap, capacity u lvl = .ok cap ∧ cap < s.payload.length) ∧
      exec (.vsel lvl) s = .next { s with ver := BitVec.ofNat 6 v, ecl := lvl, stage := .none, n := 0#8, mx := [],
                                          res := BitVec.ofNat 32 v, err := .ok }) ∧
    (TooLong lvl s → exec (.vsel lvl) s = turnedAway .capacityExceeded s) ∧
    (∀ v : Byte, 1 ≤ v.toNat → v.toNat ≤ 40 →
      exec (.setvl lvl v) s = .next { s with ver := BitVec.ofNat 6 v.toNat, ecl := lvl, stage := .none, n := 0#8, mx := [],
                                             err := .ok })

/-- For every level and version of 1..40: Capacity is DataCw minus 2 for versions up to 9 and minus 3 above, it is strictly
smaller than the next version's, and a length is within it exactly where the header and the payload fit in 8 x DataCw bits;
TotalCw is the same at the four levels, and all blocks of one version and level have the same EC count, of 7 to 30. (42_rs.md
section 4, 43_version_select.md section 1, 43_version_select.md section 3) -/
def Obligations.BlockTableTotalsAndCapacities : Prop :=
  ∀ (lvl : Level) (v : Nat), 1 ≤ v → v ≤ 40 →
    ∃ d cap, dataCw v lvl = .ok d ∧ capacity v lvl = .ok cap ∧ d = cap + (if v ≤ 9 then 2 else 3) ∧
      (v < 40 → ∃ cap', capacity (v + 1) lvl = .ok cap' ∧ cap < cap') ∧
      (∀ len, len ≤ cap ↔ 4 + lenBits v + 8 * len ≤ 8 * d) ∧
      (∃ total, ∀ lvl', totalCw v lvl' = .ok total) ∧
      ∃ bs ec, blocks v lvl = .ok bs ∧ bs ≠ [] ∧ 7 ≤ ec ∧ ec ≤ 30 ∧ ∀ b ∈ bs, b.total = b.data + ec

/-- With a version selected and a payload that fits, BBENC completes and writes BB and ERR alone: the new bits are 0100, the
payload length in LenBits(VER) bits, the payload bytes in order, 0000 and pad bytes 0xEC and 0x11 in turn from 0xEC, every
field most significant bit first, 8 x DataCw(VER, ECL) bits in all; the length field read back is the payload length.
(44_bitbuf.md section 1, 44_bitbuf.md section 2) -/
def Obligations.BbencLaysOutTheEncodedPayload : Prop :=
  ∀ s : State, Accepting s → VersionSelected s → ¬ DoesNotFit s →
    ∃ d pads bits, dataCw s.ver.toNat s.ecl = .ok d ∧
      exec .bbenc s = .next { s with bb := bits, err := .ok } ∧
      bits = [false, true, false, false] ++ msbBits s.payload.length (lenBits s.ver.toNat) ++
        s.payload.flatMap (fun b => msbBits b.toNat 8) ++ [false, false, false, false] ++
        (List.range pads).flatMap (fun k => msbBits (if k % 2 = 0 then 0xEC else 0x11) 8) ∧
      bits.length = 8 * d ∧
      numOfBits ((bits.drop 4).take (lenBits s.ver.toNat)) = s.payload.length

/-- For a bit sequence whose length is a multiple of 8 there are length / 8 codewords, and codeword k is the sum over i of 0..7
of bit 8k + i times 2^(7-i); the bytes of any byte sequence appended most significant bit first read back as that sequence;
and bit idx of the stream that data mapping consumes is bit idx of the codewords written out one after another, each from bit
7 down to bit 0, and 0 past the end. (20_memory.md section 2, 46_matrix.md section 4) -/
def Obligations.CodewordBitsRunMostSignificantFirst : Prop :=
  (∀ bits : List Bool, bits.length % 8 = 0 →
    (bytesOfBits bits).length = bits.length / 8 ∧
    ∀ k < bits.length / 8, ((bytesOfBits bits)[k]?.map BitVec.toNat) =
      some ((List.range 8).map (fun i => (bits.getD (8 * k + i) false).toNat * 2 ^ (7 - i))).sum) ∧
  (∀ bs : List Byte, bytesOfBits (bs.flatMap (fun b => msbBits b.toNat 8)) = bs) ∧
  (∀ (cw : List Byte) (idx : Nat),
    streamBit cw idx = (cw.flatMap (fun b => (List.range 8).map (fun i => b.getLsbD (7 - i)))).getD idx false)

/-- With a version selected and exactly 8 x DataCw bits in BB, SPLIT completes and writes CW and ERR alone: the codewords of BB
are cut in order into the data blocks of the table, each block has its own RsEncode, CW is their assembly in the order the
parameter INTERLEAVE asks for (log entry 1) and has TotalCw codewords; sequentially assembled, it begins with the codewords
of BB. A buffer of any other length reports IllegalCommand and changes nothing else. (45_block_split.md section 1,
45_block_split.md section 2) -/
def Obligations.SplitEncodesEveryBlockAndAssembles : Prop :=
  ∀ s : State, Accepting s → VersionSelected s →
    ∃ d total bs, dataCw s.ver.toNat s.ecl = .ok d ∧ totalCw s.ver.toNat s.ecl = .ok total ∧
      blocks s.ver.toNat s.ecl = .ok bs ∧
      (s.bb.length = 8 * d → ∃ dblk ecblk cw, exec .split s = .next { s with cw := cw, err := .ok } ∧
        dblk.flatten = bytesOfBits s.bb ∧ dblk.map List.length = bs.map Block.data ∧ ecblk.length = bs.length ∧
        (∀ (k : Nat) (b : Block) (data : List Byte), bs[k]? = some b → dblk[k]? = some data →
          ∃ ec, ecblk[k]? = some ec ∧ rsEncode data (b.total - b.data) = .ok ec ∧ ec.length = b.total - b.data) ∧
        cw = assemble s.cfg.interleave dblk ecblk ∧ cw.length = total ∧
        (s.cfg.interleave = .sequential → cw.take d = bytesOfBits s.bb)) ∧
      (s.bb.length ≠ 8 * d → exec .split s = turnedAway .illegalCommand s)

/-- For all data and EC blocks: with INTERLEAVE = SEQUENTIAL the assembly is the data blocks one after another, then the EC
blocks; with ROUND_ROBIN it is what the loop of 45_block_split.md R137 appends, for i = 0, 1, ... codeword i of every data
block that has one, in block order, and after all of them the same over the EC blocks. The round-robin assembly is a
permutation of the sequential one; for one data block and one EC block the two are equal. (45_block_split.md section 1) -/
def Obligations.AssemblyOrdersHoldTheSameCodewords : Prop :=
  (∀ dblk ecblk : List (List Byte), assemble .sequential dblk ecblk = dblk.flatten ++ ecblk.flatten ∧
    assemble .roundRobin dblk ecblk = roundRobinLoop dblk ecblk) ∧
  (∀ dblk ecblk : List (List Byte), assemble .roundRobin dblk ecblk = assembleRoundRobin dblk ecblk ∧
    (assembleRoundRobin dblk ecblk).Perm (assembleSequential dblk ecblk)) ∧
  (∀ d e : List Byte, assembleRoundRobin [d] [e] = assembleSequential [d] [e])

/-- With a version selected MXRST completes in every stage: N becomes 4 x VER + 17, MX that many rows of that many unset cells,
STAGE EMPTY, ERR 0, and nothing else changes; the host then reads cell code 0 at every position of the matrix. With VER = 0
it reports IllegalCommand. Its one word is 0x70000000. (R146) -/
def Obligations.MxrstStartsAnUnsetMatrixOfTheVersionsSide : Prop :=
  (∀ s : State, Accepting s → VersionSelected s →
    ∃ t, exec .mxrst s = .next t ∧
      t = { s with n := BitVec.ofNat 8 (4 * s.ver.toNat + 17),
                   mx := List.replicate (4 * s.ver.toNat + 17) (List.replicate (4 * s.ver.toNat + 17) Cell.unset),
                   stage := .empty, err := .ok } ∧
      t.n.toNat = 4 * s.ver.toNat + 17 ∧ ∀ row < t.n.toNat, ∀ col < t.n.toNat, readMatrix row col t = some 0) ∧
  (∀ s : State, Accepting s → s.ver = 0#6 → exec .mxrst s = turnedAway .illegalCommand s) ∧
  EncodedAs 0x70#8 (fun f => f.a ≠ 0#8 ∨ f.b ≠ 0#8 ∨ f.c ≠ 0#8) (fun _ => .mxrst)

/-- In stage EMPTY, on a state of the shape invariant, MXPAT completes and writes MX, STAGE = PATTERNS and ERR alone; afterwards
the three finders with their separators have their values, and, where every cell was unset before (as the cell invariant has
it in stage EMPTY), the cells k of row 6 and column 6 for k of 8..N-9 are dark at even k and light at odd k, alignment
patterns there or not. (46_matrix.md section 2) -/
def Obligations.MxpatDrawsFindersAndTiming : Prop :=
  ∀ s : State, Accepting s → CoreOk s → s.stage = .empty →
    ∃ g, exec .mxpat s = .next { s with mx := g, stage := .patterns, err := .ok } ∧ Square s.n.toNat g ∧
      FinderAt s.n.toNat 0 0 g ∧ FinderAt s.n.toNat (s.n.toNat - 7) 0 g ∧ FinderAt s.n.toNat 0 (s.n.toNat - 7) g ∧
      ((∀ row < s.n.toNat, ∀ col < s.n.toNat, getCell s.mx row col = .unset) →
        ∀ k, 8 ≤ k → k + 9 ≤ s.n.toNat →
          getCell g k 6 = cellOfBool (decide (k % 2 = 0)) ∧ getCell g 6 k = cellOfBool (decide (k % 2 = 0)))

/-- In stage EMPTY with every cell unset (as the cell invariant has it there), MXPAT draws at every pair of table values but the
three in finders a 5x5 pattern, dark border, light ring, dark centre; every cell outside the finder squares, the timing lines
and these patterns stays unset. (46_matrix.md section 2) -/
def Obligations.MxpatDrawsAlignmentPatternsAndLeavesTheRestUnset : Prop :=
  ∀ s : State, Accepting s → CoreOk s → s.stage = .empty →
    (∀ row < s.n.toNat, ∀ col < s.n.toNat, getCell s.mx row col = .unset) →
    ∃ pos g, alignPositions s.ver.toNat = .ok pos ∧
      exec .mxpat s = .next { s with mx := g, stage := .patterns, err := .ok } ∧
      (∀ row ∈ pos, ∀ col ∈ pos,
        (row, col) ≠ (6, 6) → (row, col) ≠ (6, s.n.toNat - 7) → (row, col) ≠ (s.n.toNat - 7, 6) →
        ∀ r ∈ alignOffsets, ∀ c ∈ alignOffsets,
          getCell g ((row : Int) + r).toNat ((col : Int) + c).toNat =
            cellOfBool (decide (max r.natAbs c.natAbs = 2 ∨ (r = 0 ∧ c = 0)))) ∧
      (∀ row < s.n.toNat, ∀ col < s.n.toNat,
        ¬ ((row < 8 ∨ s.n.toNat ≤ row + 8) ∧ col < 8) → ¬ (row < 8 ∧ s.n.toNat ≤ col + 8) → row ≠ 6 → col ≠ 6 →
        (∀ r0 ∈ pos, ∀ c0 ∈ pos, (r0, c0) ≠ (6, 6) → (r0, c0) ≠ (6, s.n.toNat - 7) → (r0, c0) ≠ (s.n.toNat - 7, 6) →
          ¬ (((row : Int) - r0).natAbs ≤ 2 ∧ ((col : Int) - c0).natAbs ≤ 2)) →
        getCell g row col = .unset)

/-- In stage PATTERNS, on a state of the shape invariant, MXRSV completes and writes MX, STAGE = RESERVED and ERR alone: the
format cells, the dark-module cell and from version 7 on the version cells become light, and every other cell reads as
before. (46_matrix.md section 3) -/
def Obligations.MxrsvPutsLightPlaceholdersOnMetadataCells : Prop :=
  ∀ s : State, Accepting s → CoreOk s → s.stage = .patterns →
    ∃ g, exec .mxrsv s = .next { s with mx := g, stage := .reserved, err := .ok } ∧ Square s.n.toNat g ∧
      (∀ row col, IsMetadata s.n.toNat s.ver.toNat row col → getCell g row col = .light) ∧
      (∀ row col, ¬ IsMetadata s.n.toNat s.ver.toNat row col → getCell g row col = getCell s.mx row col)

/-- In stage RESERVED, with k of 0..7 and the cell invariant, MXMAP completes and writes MX, MASK = k, STAGE = MAPPED and ERR
alone: MX becomes what the loop of 46_matrix.md R157 makes of it, walking as its pseudocode walks and giving each unset cell
the next bit of CW under mask k; that is the mapping of the model. Every cell assigned before reads as before, and no cell of
the matrix is unset afterwards. (46_matrix.md section 4) -/
def Obligations.MxmapWritesOnlyUnsetCellsAndLeavesNone : Prop :=
  ∀ (k : Byte) (s : State), Accepting s → CellsOk s → s.stage = .reserved → k.toNat ≤ 7 →
    ∃ g, exec (.mxmap k) s = .next { s with mx := g, mask := BitVec.ofNat 3 k.toNat, stage := .mapped, err := .ok } ∧
      g = mapLoop s.cw (BitVec.ofNat 3 k.toNat) (walkColumns s.n.toNat s.n.toNat (s.n.toNat - 1) (s.n.toNat - 1) (-1)) 0 s.mx ∧
      g = mapData s.n.toNat s.cw (BitVec.ofNat 3 k.toNat) s.mx ∧ Square s.n.toNat g ∧
      (∀ row col, getCell s.mx row col ≠ .unset → getCell g row col = getCell s.mx row col) ∧
      (∀ row < s.n.toNat, ∀ col < s.n.toNat, getCell g row col ≠ .unset)

/-- For every square grid of odd side, every codeword sequence and every mask, the mapping of the model equals the loop of
46_matrix.md R157 over its cell sequence, which tests each cell as it stands when it is reached and counts the bits as it
goes; that the test on the grid at entry is enough is log entry 8. For every side above 0 the cell sequence of the model
equals the walk of the pseudocode with its row, col and inc. (46_matrix.md section 4) -/
def Obligations.DataMappingIsTheLoopOfItsRule : Prop :=
  (∀ (n : Nat) (cw : List Byte) (k : BitVec 3) (g : Grid), n % 2 = 1 → Square n g →
    mapData n cw k g = mapLoop cw k (visitOrder n) 0 g) ∧
  (∀ n : Nat, 1 ≤ n → visitOrder n = walkColumns n n (n - 1) (n - 1) (-1))

/-- For every odd side from 9 on, the scan has no cell twice and visits (row, col) exactly where both are below the side and col
is not 6. (46_matrix.md section 4) -/
def Obligations.ScanVisitsEveryCellOffColumnSixOnce : Prop :=
  ∀ n : Nat, n % 2 = 1 → 9 ≤ n →
    (visitOrder n).Nodup ∧ ∀ row col, (row, col) ∈ visitOrder n ↔ row < n ∧ col < n ∧ col ≠ 6

/-- In stage MAPPED, on a state of the shape invariant, MXFIN completes and writes MX, STAGE = FINAL and ERR alone: both cells of
format bit i hold bit i of the format word of ECL and MASK, the cell (N-8, 8) is dark, from version 7 on both cells of
version bit i hold bit i of the version word, and every cell that is no metadata cell reads as before. (46_matrix.md section
5) -/
def Obligations.MxfinWritesTheMetadataBits : Prop :=
  ∀ s : State, Accepting s → CoreOk s → s.stage = .mapped →
    ∃ g, exec .mxfin s = .next { s with mx := g, stage := .final, err := .ok } ∧
      MetadataOk { s with mx := g, stage := .final, err := .ok } ∧
      (∀ row col, ¬ IsMetadata s.n.toNat s.ver.toNat row col → getCell g row col = getCell s.mx row col)

/-- For every k of 0..7 and every row and column MASKQ completes in every accepting state and writes RES and ERR alone: RES is 1
where the k-th predicate of the table holds and 0 where not. The predicates have period 6 in row and column. Its words are op
0x75 with a of 0..7. (R162) -/
def Obligations.MaskqAnswersThePredicate : Prop :=
  (∀ (k row col : Byte) (s : State), Accepting s → k.toNat ≤ 7 →
    exec (.maskq k row col) s = .next { s with
      res := (if (k = 0#8 ∧ (row.toNat + col.toNat) % 2 = 0) ∨ (k = 1#8 ∧ row.toNat % 2 = 0) ∨
        (k = 2#8 ∧ col.toNat % 3 = 0) ∨ (k = 3#8 ∧ (row.toNat + col.toNat) % 3 = 0) ∨
        (k = 4#8 ∧ (row.toNat / 2 + col.toNat / 3) % 2 = 0) ∨
        (k = 5#8 ∧ (row.toNat * col.toNat) % 2 + (row.toNat * col.toNat) % 3 = 0) ∨
        (k = 6#8 ∧ ((row.toNat * col.toNat) % 2 + (row.toNat * col.toNat) % 3) % 2 = 0) ∨
        (k = 7#8 ∧ ((row.toNat * col.toNat) % 3 + (row.toNat + col.toNat) % 2) % 2 = 0) then 1#32 else 0#32),
      err := .ok }) ∧
  (∀ (k : BitVec 3) (i j : Nat), maskPred k (i + 6) j = maskPred k i j ∧ maskPred k i (j + 6) = maskPred k i j) ∧
  EncodedAs 0x75#8 (fun f => 7 < f.a.toNat) (fun f => .maskq f.a f.b f.c)

/-- For every d of 0..31 and every v of 0..63 BCHFMT and BCHVER complete in every accepting state: RES becomes the format word of
d, the version word of v, zero-extended, ERR becomes 0 and nothing else changes. Their words are op 0x90 and 0x91 with a = b
= 0 and c in range. (R192, R193) -/
def Obligations.BchCommandsWriteTheirCodeWords : Prop :=
  (∀ (d : Byte) (s : State), Accepting s → d.toNat ≤ 31 →
    exec (.bchfmt d) s = .next { s with res := (bchFormat (BitVec.ofNat 5 d.toNat)).setWidth 32, err := .ok }) ∧
  (∀ (v : Byte) (s : State), Accepting s → v.toNat ≤ 63 →
    exec (.bchver v) s = .next { s with res := (bchVersion (BitVec.ofNat 6 v.toNat)).setWidth 32, err := .ok }) ∧
  EncodedAs 0x90#8 (fun f => f.a ≠ 0#8 ∨ f.b ≠ 0#8 ∨ 31 < f.c.toNat) (fun f => .bchfmt f.c) ∧
  EncodedAs 0x91#8 (fun f => f.a ≠ 0#8 ∨ f.b ≠ 0#8 ∨ 63 < f.c.toNat) (fun f => .bchver f.c)

/-- For every d of 0..31 the format word xor 0x5412 has d in bits 14..10 and is divisible by 0x537 over GF(2); for every v of
0..63 the version word has v in bits 17..12 and is divisible by 0x1F25; two different format words differ in at least 7 bits,
two different version words in at least 8; no format word is 0. (48_bch.md section 3) -/
def Obligations.BchWordsCarryTheirDataAndDiffer : Prop :=
  (∀ d : BitVec 5, ((bchFormat d).toNat ^^^ 0x5412) / 2 ^ 10 = d.toNat ∧
    bchRemainder 0x537 15 ((bchFormat d).toNat ^^^ 0x5412) = 0 ∧ bchFormat d ≠ 0#15) ∧
  (∀ v : BitVec 6, (bchVersion v).toNat / 2 ^ 12 = v.toNat ∧ bchRemainder 0x1F25 18 (bchVersion v).toNat = 0) ∧
  (∀ d d' : BitVec 5, d ≠ d' →
    7 ≤ ((List.range 15).filter (fun i => (bchFormat d).getLsbD i != (bchFormat d').getLsbD i)).length) ∧
  (∀ v v' : BitVec 6, v ≠ v' →
    8 ≤ ((List.range 18).filter (fun i => (bchVersion v).getLsbD i != (bchVersion v').getLsbD i)).length)

/-- The score of the empty line is 0, and the score of a line that begins with a maximal run of L modules is L - 2 for L of 5 or
more and 0 for fewer, plus the score of what follows the run. (47_mask_eval.md section 2) -/
def Obligations.RunScoreCountsEveryMaximalRunOnce : Prop :=
  runScore [] = 0 ∧
  ∀ (b : Bool) (len : Nat) (rest : List Bool), 1 ≤ len → rest.head? ≠ some b →
    runScore (List.replicate len b ++ rest) = (if 5 ≤ len then len - 2 else 0) + runScore rest

/-- On every square grid of 0/1 lines PenB is 3 times the number of windows of four identical modules, over all (r, c) with r and
c up to N-2; PatCount of a line is the number of start positions at which the seven modules read 1011101, overlapping ones
too. (47_mask_eval.md section 2) -/
def Obligations.BlocksAndMimicsAreCountedAtEveryPosition : Prop :=
  (∀ (n : Nat) (rows : List (List Bool)), rows.length = n → (∀ cells ∈ rows, cells.length = n) →
    penB rows = 3 * windowCount n rows) ∧
  (∀ cells : List Bool, patCount cells = mimicStarts cells)

/-- For every side above 0 and every 0/1 grid, dark being the number of its cells that are 1, PenD equals 10 times the floor of
|100 x dark / total - 50| / 5, the division exact and the floor taken once at the end; and that is 10 times |100 x dark - 50
x total| div (5 x total). (R179) -/
def Obligations.BalanceScoreIsTheExactRationalFloor : Prop :=
  ∀ (n : Nat) (rows : List (List Bool)), 1 ≤ n →
    (penD n rows : Int) = 10 * ⌊|100 * (darkCount rows : ℚ) / ((n : ℚ) * n) - 50| / 5⌋ ∧
    darkCount rows = rows.flatten.count true ∧
    penD n rows = 10 * ((100 * (darkCount rows : Int) - 50 * ((n : Int) * n)).natAbs / (5 * (n * n)))

/-- In stage MAPPED or FINAL, on a state of the shape invariant, MXPEN completes and writes RES and ERR alone; RES, as a number,
is the sum of the four penalty rules over the rows and columns of the grid and is below 2600000, so that no bit is lost. Row
r reads the cells (r, 0) to (r, N-1) and column c the cells (0, c) to (N-1, c), 1 for dark and 0 for light; PenA is the sum
of RunScore over the rows plus that over the columns, and PenC is 40 times the same two sums of PatCount. (47_mask_eval.md
section 2, 47_mask_eval.md section 3) -/
def Obligations.MxpenReportsTheSumOfTheFourRules : Prop :=
  ∀ s : State, Accepting s → CoreOk s → s.stage = .mapped ∨ s.stage = .final →
    ∃ v, exec .mxpen s = .next { s with res := v, err := .ok } ∧ v.toNat < 2600000 ∧
      v.toNat = penA (boolRows s.mx) (columnsOf s.n.toNat (boolRows s.mx)) + penB (boolRows s.mx) +
        penC (boolRows s.mx) (columnsOf s.n.toNat (boolRows s.mx)) + penD s.n.toNat (boolRows s.mx) ∧
      boolRows s.mx = (List.range s.n.toNat).map (rowLine s.n.toNat s.mx) ∧
      columnsOf s.n.toNat (boolRows s.mx) = (List.range s.n.toNat).map (columnLine s.n.toNat s.mx) ∧
      penA (boolRows s.mx) (columnsOf s.n.toNat (boolRows s.mx)) =
        ((List.range s.n.toNat).map (fun r => runScore (rowLine s.n.toNat s.mx r))).sum +
          ((List.range s.n.toNat).map (fun c => runScore (columnLine s.n.toNat s.mx c))).sum ∧
      penC (boolRows s.mx) (columnsOf s.n.toNat (boolRows s.mx)) =
        40 * (((List.range s.n.toNat).map (fun r => patCount (rowLine s.n.toNat s.mx r))).sum +
          ((List.range s.n.toNat).map (fun c => patCount (columnLine s.n.toNat s.mx c))).sum)

/-- With a version selected MXBEST completes in every stage and writes N, MX, MASK, BESTPEN, STAGE = FINAL and ERR alone: MASK is
a mask whose trial score no other of the eight undercuts, and every smaller index scores strictly more; BESTPEN is that
score, as a number, and MX the final grid under that mask. (47_mask_eval.md section 3) -/
def Obligations.MxbestPicksTheLowestScoreAndSmallestIndex : Prop :=
  ∀ s : State, Accepting s → VersionSelected s →
    ∃ (pos : List Nat) (best : BitVec 3) (n : Nat), alignPositions s.ver.toNat = .ok pos ∧ n = 4 * s.ver.toNat + 17 ∧
      exec .mxbest s = .next { s with n := BitVec.ofNat 8 n, mx := buildFinal n s.ver pos s.cw s.ecl best, mask := best,
                                      bestpen := BitVec.ofNat 32 (trialScore n s.ver.toNat pos s.cw best),
                                      stage := .final, err := .ok } ∧
      (∀ k, trialScore n s.ver.toNat pos s.cw best ≤ trialScore n s.ver.toNat pos s.cw k) ∧
      (∀ k, k.toNat < best.toNat → trialScore n s.ver.toNat pos s.cw best < trialScore n s.ver.toNat pos s.cw k) ∧
      (BitVec.ofNat 32 (trialScore n s.ver.toNat pos s.cw best)).toNat = trialScore n s.ver.toNat pos s.cw best

/-- With a version selected: for every mask k the sequence MXRST, MXPAT, MXRSV, MXMAP k runs without an error and MXPEN after it
reports the trial score of k; and the sequence for the mask MXBEST chooses, with MXFIN after it, leaves the state MXBEST
leaves, but for BESTPEN. (46_matrix.md section 5, 47_mask_eval.md section 3) -/
def Obligations.MxbestEqualsTheFiveMatrixCommands : Prop :=
  ∀ s : State, Accepting s → VersionSelected s →
    ∃ s1 s2 s3 t pos, exec .mxrst s = .next s1 ∧ exec .mxpat s1 = .next s2 ∧ exec .mxrsv s2 = .next s3 ∧
      s1.err = .ok ∧ s2.err = .ok ∧ s3.err = .ok ∧ exec .mxbest s = .next t ∧ t.err = .ok ∧ alignPositions s.ver.toNat = .ok pos ∧
      (∀ k : BitVec 3, ∃ s4, exec (.mxmap (k.setWidth 8)) s3 = .next s4 ∧ s4.err = .ok ∧
        exec .mxpen s4 = .next { s4 with
          res := BitVec.ofNat 32 (trialScore (4 * s.ver.toNat + 17) s.ver.toNat pos s.cw k) }) ∧
      ∃ s4, exec (.mxmap (t.mask.setWidth 8)) s3 = .next s4 ∧
        exec .mxfin s4 = .next { t with bestpen := s.bestpen }

/-- For a payload within the version-40 capacity the four commands and GEN all succeed, and GEN leaves exactly the state the
sequence leaves but for RES, which keeps its value; N is then 4 x VER + 17 and CWLEN the total of the version and level. A
payload over the capacity makes GEN report CapacityExceeded and change nothing else. Its words are op 0xA0 with a of 0..3 and
b = c = 0. (R203) -/
def Obligations.GenEqualsTheFourCommandSequence : Prop :=
  (∀ (lvl : Level) (s : State), Accepting s → ¬ TooLong lvl s →
    ∃ s1 s2 s3 s4, exec (.vsel lvl) s = .next s1 ∧ exec .bbenc s1 = .next s2 ∧ exec .split s2 = .next s3 ∧
      exec .mxbest s3 = .next s4 ∧ s1.err = .ok ∧ s2.err = .ok ∧ s3.err = .ok ∧ s4.err = .ok ∧
      exec (.gen lvl) s = .next { s4 with res := s.res } ∧
      s4.n.toNat = 4 * s4.ver.toNat + 17 ∧ totalCw s4.ver.toNat lvl = .ok s4.cw.length) ∧
  (∀ (lvl : Level) (s : State), Accepting s → TooLong lvl s → exec (.gen lvl) s = turnedAway .capacityExceeded s) ∧
  EncodedAs 0xA0#8 (fun f => 3 < f.a.toNat ∨ f.b ≠ 0#8 ∨ f.c ≠ 0#8) (fun f => .gen (levelOf f.a))

/-- For two accepting states with the same payload and the same parameters (log entry 1), and a payload within the version-40
capacity, GEN leaves in both the same VER, ECL, BB, CW, N, MX, MASK, BESTPEN, STAGE and ERR, and in each every register it
does not write. (49_generate.md (properties of GEN), 70_reset_and_hazards.md section 5) -/
def Obligations.GenReadsThePayloadAndTheParameterAlone : Prop :=
  ∀ (lvl : Level) (s s' : State), Accepting s → Accepting s' → s.payload = s'.payload → s.cfg = s'.cfg → ¬ TooLong lvl s →
    ∃ t, exec (.gen lvl) s = .next t ∧
      exec (.gen lvl) s' = .next { s' with ver := t.ver, ecl := t.ecl, bb := t.bb, cw := t.cw, n := t.n, mx := t.mx,
                                           mask := t.mask, bestpen := t.bestpen, stage := t.stage, err := t.err } ∧
      t = { s with ver := t.ver, ecl := t.ecl, bb := t.bb, cw := t.cw, n := t.n, mx := t.mx, mask := t.mask,
                   bestpen := t.bestpen, stage := t.stage, err := .ok }

/-- With a finished symbol and both coordinates below N, ISDARK completes: RES is 1 where the cell is dark and 0 where not, ERR
becomes 0 and nothing else changes, so that asking again gives the same answer. In a finished symbol that meets the finder
and metadata invariants the answers at (0, 0) and at the dark module (N-8, 8) are 1, and the one at (7, 7) is 0.
(49_generate.md (ISDARK), 49_generate.md (the renderer contract), 46_matrix.md section 5) -/
def Obligations.IsdarkReadsOneCellOfTheFinishedSymbol : Prop :=
  (∀ (row col : Byte) (s : State), Accepting s → s.stage = .final → row.toNat < s.n.toNat → col.toNat < s.n.toNat →
    ∃ t, exec (.isdark row col) s = .next t ∧
      t = { s with res := (if getCell s.mx row.toNat col.toNat = .dark then 1#32 else 0#32), err := .ok } ∧
      exec (.isdark row col) t = .next t) ∧
  (∀ s : State, Accepting s → FindersOk s → MetadataOk s → s.stage = .final →
    exec (.isdark 0#8 0#8) s = .next { s with res := 1#32, err := .ok } ∧
    exec (.isdark (s.n - 8#8) 8#8) s = .next { s with res := 1#32, err := .ok } ∧
    exec (.isdark 7#8 7#8) s = .next { s with res := 0#32, err := .ok })

/-- For every command and state: STAGE becomes smaller only by MXRST, MXBEST, GEN, VSEL or SETVL; where a command succeeds, MXRST
leaves EMPTY, MXPAT goes from EMPTY to PATTERNS, MXRSV from PATTERNS to RESERVED, MXMAP from RESERVED to MAPPED, MXFIN from
MAPPED to FINAL, MXBEST and GEN leave FINAL, VSEL and SETVL NONE; and in stage FINAL every other command leaves MX and N as
they are. (46_matrix.md section 1) -/
def Obligations.StageMovesOneWayUntilRestarted : Prop :=
  ∀ (i : Instr) (s t : State), Accepting s → exec i s = .next t →
    ((stageCode t.stage).toNat < (stageCode s.stage).toNat →
      i = .mxrst ∨ i = .mxbest ∨ ∃ lvl, i = .gen lvl ∨ i = .vsel lvl ∨ ∃ v, i = .setvl lvl v) ∧
    (t.err = .ok →
      (i = .mxrst → t.stage = .empty) ∧ (i = .mxpat → s.stage = .empty ∧ t.stage = .patterns) ∧
      (i = .mxrsv → s.stage = .patterns ∧ t.stage = .reserved) ∧
      (∀ k, i = .mxmap k → s.stage = .reserved ∧ t.stage = .mapped) ∧
      (i = .mxfin → s.stage = .mapped ∧ t.stage = .final) ∧ (i = .mxbest → t.stage = .final) ∧
      (∀ lvl, i = .gen lvl → t.stage = .final) ∧ (∀ lvl, i = .vsel lvl → t.stage = .none) ∧
      (∀ lvl v, i = .setvl lvl v → t.stage = .none)) ∧
    (s.stage = .final → i ≠ .mxrst → i ≠ .mxbest → (∀ lvl, i ≠ .gen lvl) → (∀ lvl, i ≠ .vsel lvl) →
      (∀ lvl v, i ≠ .setvl lvl v) → t.mx = s.mx ∧ t.n = s.n ∧ t.stage = .final)

/-- From every state that meets the register and shape invariant, whatever the host presents, a step gives a state that meets it:
VER stays 0..40, ERR never reports InvalidLookup, FAULT = 1 exactly with a fatal ERR, the polynomial registers stay
canonical, every length counter stays at most LEN_MAX, and the matrix is N x N with N = 0 without a matrix and 4 x VER + 17
with one. (10_state.md section 4, 60_exceptions.md section 2) -/
def Obligations.StepKeepsRegistersAndShape : Prop :=
  ∀ s t : State, CoreOk s → step s = .next t → CoreOk t

/-- From every state that meets the register and shape invariant, in which every cell is unset in stage EMPTY, none is in the
stages MAPPED and FINAL and none of column 6 in PATTERNS and RESERVED, a step gives such a state. (10_state.md section 3,
46_matrix.md section 4) -/
def Obligations.StepKeepsAssignedCells : Prop :=
  ∀ s t : State, CellsOk s → step s = .next t → CellsOk t

/-- From every state of the register and shape invariant whose three finders with their separators have the values of their rule
in every stage from PATTERNS on, a step gives such a state. (46_matrix.md section 2, 46_matrix.md section 5) -/
def Obligations.StepKeepsTheFinders : Prop :=
  ∀ s t : State, FindersOk s → step s = .next t → FindersOk t

/-- From every state of the register and shape invariant in which a finished symbol has both format copies of its ECL and MASK,
the dark module and from version 7 on both version blocks of its VER, a step gives such a state. (46_matrix.md section 3,
46_matrix.md section 5) -/
def Obligations.StepKeepsTheMetadataOfAFinishedSymbol : Prop :=
  ∀ s t : State, MetadataOk s → step s = .next t → MetadataOk t
end

