-- ==== Sys2Proof/Laws/Decode.lean ====
section
/-! SUPPORT. Fields and words: the four fields of a word and the word of four fields undo each other. -/

namespace Sys2Proof

/-- The number of two bit vectors written one after the other. -/
theorem toNat_append_eq {m n : Nat} (x : BitVec m) (y : BitVec n) : (x ++ y).toNat = x.toNat * 2 ^ n + y.toNat := by
  rw [BitVec.toNat_append, ← Nat.shiftLeft_add_eq_or_of_lt y.isLt, Nat.shiftLeft_eq]

/-- A word as a number: `op`, `a`, `b`, `c` from the most significant byte down (30_encoding.md R60). -/
theorem pack_toNat (f : Fields) :
    (pack f).toNat = ((f.op.toNat * 256 + f.a.toNat) * 256 + f.b.toNat) * 256 + f.c.toNat := by
  have h1 := toNat_append_eq f.op f.a
  have h2 := toNat_append_eq (f.op ++ f.a) f.b
  have h3 := toNat_append_eq (f.op ++ f.a ++ f.b) f.c
  have h : (pack f).toNat = (f.op ++ f.a ++ f.b ++ f.c).toNat := rfl
  omega

theorem fieldsOf_toNat (w : Word) :
    (fieldsOf w).op.toNat = w.toNat / 2 ^ 24 ∧ (fieldsOf w).a.toNat = w.toNat / 2 ^ 16 % 256 ∧
    (fieldsOf w).b.toNat = w.toNat / 2 ^ 8 % 256 ∧ (fieldsOf w).c.toNat = w.toNat % 256 := by
  have := w.isLt
  refine ⟨?_, ?_, ?_, ?_⟩ <;> simp only [fieldsOf, BitVec.extractLsb'_toNat, Nat.shiftRight_eq_div_pow] <;> omega

/-- Packing fields and taking a word apart undo each other (30_encoding.md R60). -/
theorem fieldsOf_pack (f : Fields) : fieldsOf (pack f) = f := by
  obtain ⟨h1, h2, h3, h4⟩ := fieldsOf_toNat (pack f)
  rw [pack_toNat] at h1 h2 h3 h4
  have := f.op.isLt
  have := f.a.isLt
  have := f.b.isLt
  have := f.c.isLt
  have e1 : (fieldsOf (pack f)).op = f.op := BitVec.eq_of_toNat_eq (by omega)
  have e2 : (fieldsOf (pack f)).a = f.a := BitVec.eq_of_toNat_eq (by omega)
  have e3 : (fieldsOf (pack f)).b = f.b := BitVec.eq_of_toNat_eq (by omega)
  have e4 : (fieldsOf (pack f)).c = f.c := BitVec.eq_of_toNat_eq (by omega)
  cases f
  simp_all [fieldsOf]

theorem pack_fieldsOf (w : Word) : pack (fieldsOf w) = w := by
  apply BitVec.eq_of_toNat_eq
  obtain ⟨h1, h2, h3, h4⟩ := fieldsOf_toNat w
  rw [pack_toNat, h1, h2, h3, h4]
  have := w.isLt
  omega

/-- A word is known by its four fields. -/
theorem word_eq_of_fields {w w' : Word} (h : fieldsOf w = fieldsOf w') : w = w' := by
  rw [← pack_fieldsOf w, h, pack_fieldsOf]

theorem fieldsOf_encode (i : Instr) : fieldsOf (encode i) = fieldsFor i := fieldsOf_pack _

@[simp] theorem fieldsFor_op (i : Instr) : (fieldsFor i).op = opcodeOf i := by cases i <;> rfl

/-- A 16-bit operand is its two bytes, the high one first (30_encoding.md R60). -/
theorem immHigh_append_immLow (v : BitVec 16) : immHigh v ++ immLow v = v := by
  have h := toNat_append_eq (immHigh v) (immLow v)
  apply BitVec.eq_of_toNat_eq
  rw [h]
  simp only [immHigh, immLow, BitVec.extractLsb'_toNat, Nat.shiftRight_eq_div_pow]
  have := v.isLt
  omega

/-- The two bytes of the operand that two bytes form are those bytes. -/
theorem imm_bytes (b c : Byte) : immHigh (b ++ c) = b ∧ immLow (b ++ c) = c := by
  have h := toNat_append_eq b c
  have := b.isLt
  have := c.isLt
  constructor <;> apply BitVec.eq_of_toNat_eq <;>
    simp only [immHigh, immLow, BitVec.extractLsb'_toNat, Nat.shiftRight_eq_div_pow, h] <;> omega

end Sys2Proof
end

