-- ==== Sys2Proof/Laws/State.lean ====
section
/-! SUPPORT. What each named update of State does to each field, true by unfolding the update once. -/

namespace Sys2Proof.Machine

variable (s : State)

/-! ## `raise` -/

@[simp] theorem raise_ver (e : ErrorCode) : (raise e s).ver = s.ver := rfl
@[simp] theorem raise_ecl (e : ErrorCode) : (raise e s).ecl = s.ecl := rfl
@[simp] theorem raise_mask (e : ErrorCode) : (raise e s).mask = s.mask := rfl
@[simp] theorem raise_n (e : ErrorCode) : (raise e s).n = s.n := rfl
@[simp] theorem raise_bestpen (e : ErrorCode) : (raise e s).bestpen = s.bestpen := rfl
@[simp] theorem raise_res (e : ErrorCode) : (raise e s).res = s.res := rfl
@[simp] theorem raise_stage (e : ErrorCode) : (raise e s).stage = s.stage := rfl
@[simp] theorem raise_err (e : ErrorCode) : (raise e s).err = .failed e := rfl
@[simp] theorem raise_fault (e : ErrorCode) : (raise e s).fault = (s.fault || isFatal e) := rfl
@[simp] theorem raise_payload (e : ErrorCode) : (raise e s).payload = s.payload := rfl
@[simp] theorem raise_pa (e : ErrorCode) : (raise e s).pa = s.pa := rfl
@[simp] theorem raise_pb (e : ErrorCode) : (raise e s).pb = s.pb := rfl
@[simp] theorem raise_pr (e : ErrorCode) : (raise e s).pr = s.pr := rfl
@[simp] theorem raise_db (e : ErrorCode) : (raise e s).db = s.db := rfl
@[simp] theorem raise_ecb (e : ErrorCode) : (raise e s).ecb = s.ecb := rfl
@[simp] theorem raise_bb (e : ErrorCode) : (raise e s).bb = s.bb := rfl
@[simp] theorem raise_cw (e : ErrorCode) : (raise e s).cw = s.cw := rfl
@[simp] theorem raise_mx (e : ErrorCode) : (raise e s).mx = s.mx := rfl
@[simp] theorem raise_cfg (e : ErrorCode) : (raise e s).cfg = s.cfg := rfl
@[simp] theorem raise_port (e : ErrorCode) : (raise e s).port = s.port := rfl

/-! ## `succeed` -/

@[simp] theorem succeed_ver : (succeed s).ver = s.ver := rfl
@[simp] theorem succeed_ecl : (succeed s).ecl = s.ecl := rfl
@[simp] theorem succeed_mask : (succeed s).mask = s.mask := rfl
@[simp] theorem succeed_n : (succeed s).n = s.n := rfl
@[simp] theorem succeed_bestpen : (succeed s).bestpen = s.bestpen := rfl
@[simp] theorem succeed_res : (succeed s).res = s.res := rfl
@[simp] theorem succeed_stage : (succeed s).stage = s.stage := rfl
@[simp] theorem succeed_err : (succeed s).err = .ok := rfl
@[simp] theorem succeed_fault : (succeed s).fault = s.fault := rfl
@[simp] theorem succeed_payload : (succeed s).payload = s.payload := rfl
@[simp] theorem succeed_pa : (succeed s).pa = s.pa := rfl
@[simp] theorem succeed_pb : (succeed s).pb = s.pb := rfl
@[simp] theorem succeed_pr : (succeed s).pr = s.pr := rfl
@[simp] theorem succeed_db : (succeed s).db = s.db := rfl
@[simp] theorem succeed_ecb : (succeed s).ecb = s.ecb := rfl
@[simp] theorem succeed_bb : (succeed s).bb = s.bb := rfl
@[simp] theorem succeed_cw : (succeed s).cw = s.cw := rfl
@[simp] theorem succeed_mx : (succeed s).mx = s.mx := rfl
@[simp] theorem succeed_cfg : (succeed s).cfg = s.cfg := rfl
@[simp] theorem succeed_port : (succeed s).port = s.port := rfl

/-! ## `setRes` -/

@[simp] theorem setRes_ver (v : Word) : (setRes v s).ver = s.ver := rfl
@[simp] theorem setRes_ecl (v : Word) : (setRes v s).ecl = s.ecl := rfl
@[simp] theorem setRes_mask (v : Word) : (setRes v s).mask = s.mask := rfl
@[simp] theorem setRes_n (v : Word) : (setRes v s).n = s.n := rfl
@[simp] theorem setRes_bestpen (v : Word) : (setRes v s).bestpen = s.bestpen := rfl
@[simp] theorem setRes_res (v : Word) : (setRes v s).res = v := rfl
@[simp] theorem setRes_stage (v : Word) : (setRes v s).stage = s.stage := rfl
@[simp] theorem setRes_err (v : Word) : (setRes v s).err = s.err := rfl
@[simp] theorem setRes_fault (v : Word) : (setRes v s).fault = s.fault := rfl
@[simp] theorem setRes_payload (v : Word) : (setRes v s).payload = s.payload := rfl
@[simp] theorem setRes_pa (v : Word) : (setRes v s).pa = s.pa := rfl
@[simp] theorem setRes_pb (v : Word) : (setRes v s).pb = s.pb := rfl
@[simp] theorem setRes_pr (v : Word) : (setRes v s).pr = s.pr := rfl
@[simp] theorem setRes_db (v : Word) : (setRes v s).db = s.db := rfl
@[simp] theorem setRes_ecb (v : Word) : (setRes v s).ecb = s.ecb := rfl
@[simp] theorem setRes_bb (v : Word) : (setRes v s).bb = s.bb := rfl
@[simp] theorem setRes_cw (v : Word) : (setRes v s).cw = s.cw := rfl
@[simp] theorem setRes_mx (v : Word) : (setRes v s).mx = s.mx := rfl
@[simp] theorem setRes_cfg (v : Word) : (setRes v s).cfg = s.cfg := rfl
@[simp] theorem setRes_port (v : Word) : (setRes v s).port = s.port := rfl

/-! ## `discardMatrix` -/

@[simp] theorem discardMatrix_ver : (discardMatrix s).ver = s.ver := rfl
@[simp] theorem discardMatrix_ecl : (discardMatrix s).ecl = s.ecl := rfl
@[simp] theorem discardMatrix_mask : (discardMatrix s).mask = s.mask := rfl
@[simp] theorem discardMatrix_n : (discardMatrix s).n = 0#8 := rfl
@[simp] theorem discardMatrix_bestpen : (discardMatrix s).bestpen = s.bestpen := rfl
@[simp] theorem discardMatrix_res : (discardMatrix s).res = s.res := rfl
@[simp] theorem discardMatrix_stage : (discardMatrix s).stage = .none := rfl
@[simp] theorem discardMatrix_err : (discardMatrix s).err = s.err := rfl
@[simp] theorem discardMatrix_fault : (discardMatrix s).fault = s.fault := rfl
@[simp] theorem discardMatrix_payload : (discardMatrix s).payload = s.payload := rfl
@[simp] theorem discardMatrix_pa : (discardMatrix s).pa = s.pa := rfl
@[simp] theorem discardMatrix_pb : (discardMatrix s).pb = s.pb := rfl
@[simp] theorem discardMatrix_pr : (discardMatrix s).pr = s.pr := rfl
@[simp] theorem discardMatrix_db : (discardMatrix s).db = s.db := rfl
@[simp] theorem discardMatrix_ecb : (discardMatrix s).ecb = s.ecb := rfl
@[simp] theorem discardMatrix_bb : (discardMatrix s).bb = s.bb := rfl
@[simp] theorem discardMatrix_cw : (discardMatrix s).cw = s.cw := rfl
@[simp] theorem discardMatrix_mx : (discardMatrix s).mx = [] := rfl
@[simp] theorem discardMatrix_cfg : (discardMatrix s).cfg = s.cfg := rfl
@[simp] theorem discardMatrix_port : (discardMatrix s).port = s.port := rfl

/-! ## `popPort` -/

@[simp] theorem popPort_ver (rest : List HostEvent) : (popPort rest s).ver = s.ver := rfl
@[simp] theorem popPort_ecl (rest : List HostEvent) : (popPort rest s).ecl = s.ecl := rfl
@[simp] theorem popPort_mask (rest : List HostEvent) : (popPort rest s).mask = s.mask := rfl
@[simp] theorem popPort_n (rest : List HostEvent) : (popPort rest s).n = s.n := rfl
@[simp] theorem popPort_bestpen (rest : List HostEvent) : (popPort rest s).bestpen = s.bestpen := rfl
@[simp] theorem popPort_res (rest : List HostEvent) : (popPort rest s).res = s.res := rfl
@[simp] theorem popPort_stage (rest : List HostEvent) : (popPort rest s).stage = s.stage := rfl
@[simp] theorem popPort_err (rest : List HostEvent) : (popPort rest s).err = s.err := rfl
@[simp] theorem popPort_fault (rest : List HostEvent) : (popPort rest s).fault = s.fault := rfl
@[simp] theorem popPort_payload (rest : List HostEvent) : (popPort rest s).payload = s.payload := rfl
@[simp] theorem popPort_pa (rest : List HostEvent) : (popPort rest s).pa = s.pa := rfl
@[simp] theorem popPort_pb (rest : List HostEvent) : (popPort rest s).pb = s.pb := rfl
@[simp] theorem popPort_pr (rest : List HostEvent) : (popPort rest s).pr = s.pr := rfl
@[simp] theorem popPort_db (rest : List HostEvent) : (popPort rest s).db = s.db := rfl
@[simp] theorem popPort_ecb (rest : List HostEvent) : (popPort rest s).ecb = s.ecb := rfl
@[simp] theorem popPort_bb (rest : List HostEvent) : (popPort rest s).bb = s.bb := rfl
@[simp] theorem popPort_cw (rest : List HostEvent) : (popPort rest s).cw = s.cw := rfl
@[simp] theorem popPort_mx (rest : List HostEvent) : (popPort rest s).mx = s.mx := rfl
@[simp] theorem popPort_cfg (rest : List HostEvent) : (popPort rest s).cfg = s.cfg := rfl
@[simp] theorem popPort_port (rest : List HostEvent) : (popPort rest s).port = rest := rfl

/-! ## `presentWord` -/

@[simp] theorem presentWord_ver (w : Word) : (presentWord w s).ver = s.ver := rfl
@[simp] theorem presentWord_ecl (w : Word) : (presentWord w s).ecl = s.ecl := rfl
@[simp] theorem presentWord_mask (w : Word) : (presentWord w s).mask = s.mask := rfl
@[simp] theorem presentWord_n (w : Word) : (presentWord w s).n = s.n := rfl
@[simp] theorem presentWord_bestpen (w : Word) : (presentWord w s).bestpen = s.bestpen := rfl
@[simp] theorem presentWord_res (w : Word) : (presentWord w s).res = s.res := rfl
@[simp] theorem presentWord_stage (w : Word) : (presentWord w s).stage = s.stage := rfl
@[simp] theorem presentWord_err (w : Word) : (presentWord w s).err = s.err := rfl
@[simp] theorem presentWord_fault (w : Word) : (presentWord w s).fault = s.fault := rfl
@[simp] theorem presentWord_payload (w : Word) : (presentWord w s).payload = s.payload := rfl
@[simp] theorem presentWord_pa (w : Word) : (presentWord w s).pa = s.pa := rfl
@[simp] theorem presentWord_pb (w : Word) : (presentWord w s).pb = s.pb := rfl
@[simp] theorem presentWord_pr (w : Word) : (presentWord w s).pr = s.pr := rfl
@[simp] theorem presentWord_db (w : Word) : (presentWord w s).db = s.db := rfl
@[simp] theorem presentWord_ecb (w : Word) : (presentWord w s).ecb = s.ecb := rfl
@[simp] theorem presentWord_bb (w : Word) : (presentWord w s).bb = s.bb := rfl
@[simp] theorem presentWord_cw (w : Word) : (presentWord w s).cw = s.cw := rfl
@[simp] theorem presentWord_mx (w : Word) : (presentWord w s).mx = s.mx := rfl
@[simp] theorem presentWord_cfg (w : Word) : (presentWord w s).cfg = s.cfg := rfl
@[simp] theorem presentWord_port (w : Word) : (presentWord w s).port = .command w :: s.port := rfl

/-! ## `assertReset` -/

@[simp] theorem assertReset_ver : (assertReset s).ver = State.reset.ver := rfl
@[simp] theorem assertReset_ecl : (assertReset s).ecl = State.reset.ecl := rfl
@[simp] theorem assertReset_mask : (assertReset s).mask = State.reset.mask := rfl
@[simp] theorem assertReset_n : (assertReset s).n = State.reset.n := rfl
@[simp] theorem assertReset_bestpen : (assertReset s).bestpen = State.reset.bestpen := rfl
@[simp] theorem assertReset_res : (assertReset s).res = State.reset.res := rfl
@[simp] theorem assertReset_stage : (assertReset s).stage = State.reset.stage := rfl
@[simp] theorem assertReset_err : (assertReset s).err = State.reset.err := rfl
@[simp] theorem assertReset_fault : (assertReset s).fault = State.reset.fault := rfl
@[simp] theorem assertReset_payload : (assertReset s).payload = State.reset.payload := rfl
@[simp] theorem assertReset_pa : (assertReset s).pa = State.reset.pa := rfl
@[simp] theorem assertReset_pb : (assertReset s).pb = State.reset.pb := rfl
@[simp] theorem assertReset_pr : (assertReset s).pr = State.reset.pr := rfl
@[simp] theorem assertReset_db : (assertReset s).db = State.reset.db := rfl
@[simp] theorem assertReset_ecb : (assertReset s).ecb = State.reset.ecb := rfl
@[simp] theorem assertReset_bb : (assertReset s).bb = State.reset.bb := rfl
@[simp] theorem assertReset_cw : (assertReset s).cw = State.reset.cw := rfl
@[simp] theorem assertReset_mx : (assertReset s).mx = State.reset.mx := rfl
@[simp] theorem assertReset_cfg : (assertReset s).cfg = s.cfg := rfl
@[simp] theorem assertReset_port : (assertReset s).port = s.port := rfl

/-! ## `writePoly_pa` -/

@[simp] theorem writePoly_pa_ver (p : Poly) : (writePoly .pa p s).ver = s.ver := rfl
@[simp] theorem writePoly_pa_ecl (p : Poly) : (writePoly .pa p s).ecl = s.ecl := rfl
@[simp] theorem writePoly_pa_mask (p : Poly) : (writePoly .pa p s).mask = s.mask := rfl
@[simp] theorem writePoly_pa_n (p : Poly) : (writePoly .pa p s).n = s.n := rfl
@[simp] theorem writePoly_pa_bestpen (p : Poly) : (writePoly .pa p s).bestpen = s.bestpen := rfl
@[simp] theorem writePoly_pa_res (p : Poly) : (writePoly .pa p s).res = s.res := rfl
@[simp] theorem writePoly_pa_stage (p : Poly) : (writePoly .pa p s).stage = s.stage := rfl
@[simp] theorem writePoly_pa_err (p : Poly) : (writePoly .pa p s).err = s.err := rfl
@[simp] theorem writePoly_pa_fault (p : Poly) : (writePoly .pa p s).fault = s.fault := rfl
@[simp] theorem writePoly_pa_payload (p : Poly) : (writePoly .pa p s).payload = s.payload := rfl
@[simp] theorem writePoly_pa_pa (p : Poly) : (writePoly .pa p s).pa = p := rfl
@[simp] theorem writePoly_pa_pb (p : Poly) : (writePoly .pa p s).pb = s.pb := rfl
@[simp] theorem writePoly_pa_pr (p : Poly) : (writePoly .pa p s).pr = s.pr := rfl
@[simp] theorem writePoly_pa_db (p : Poly) : (writePoly .pa p s).db = s.db := rfl
@[simp] theorem writePoly_pa_ecb (p : Poly) : (writePoly .pa p s).ecb = s.ecb := rfl
@[simp] theorem writePoly_pa_bb (p : Poly) : (writePoly .pa p s).bb = s.bb := rfl
@[simp] theorem writePoly_pa_cw (p : Poly) : (writePoly .pa p s).cw = s.cw := rfl
@[simp] theorem writePoly_pa_mx (p : Poly) : (writePoly .pa p s).mx = s.mx := rfl
@[simp] theorem writePoly_pa_cfg (p : Poly) : (writePoly .pa p s).cfg = s.cfg := rfl
@[simp] theorem writePoly_pa_port (p : Poly) : (writePoly .pa p s).port = s.port := rfl

/-! ## `writePoly_pb` -/

@[simp] theorem writePoly_pb_ver (p : Poly) : (writePoly .pb p s).ver = s.ver := rfl
@[simp] theorem writePoly_pb_ecl (p : Poly) : (writePoly .pb p s).ecl = s.ecl := rfl
@[simp] theorem writePoly_pb_mask (p : Poly) : (writePoly .pb p s).mask = s.mask := rfl
@[simp] theorem writePoly_pb_n (p : Poly) : (writePoly .pb p s).n = s.n := rfl
@[simp] theorem writePoly_pb_bestpen (p : Poly) : (writePoly .pb p s).bestpen = s.bestpen := rfl
@[simp] theorem writePoly_pb_res (p : Poly) : (writePoly .pb p s).res = s.res := rfl
@[simp] theorem writePoly_pb_stage (p : Poly) : (writePoly .pb p s).stage = s.stage := rfl
@[simp] theorem writePoly_pb_err (p : Poly) : (writePoly .pb p s).err = s.err := rfl
@[simp] theorem writePoly_pb_fault (p : Poly) : (writePoly .pb p s).fault = s.fault := rfl
@[simp] theorem writePoly_pb_payload (p : Poly) : (writePoly .pb p s).payload = s.payload := rfl
@[simp] theorem writePoly_pb_pa (p : Poly) : (writePoly .pb p s).pa = s.pa := rfl
@[simp] theorem writePoly_pb_pb (p : Poly) : (writePoly .pb p s).pb = p := rfl
@[simp] theorem writePoly_pb_pr (p : Poly) : (writePoly .pb p s).pr = s.pr := rfl
@[simp] theorem writePoly_pb_db (p : Poly) : (writePoly .pb p s).db = s.db := rfl
@[simp] theorem writePoly_pb_ecb (p : Poly) : (writePoly .pb p s).ecb = s.ecb := rfl
@[simp] theorem writePoly_pb_bb (p : Poly) : (writePoly .pb p s).bb = s.bb := rfl
@[simp] theorem writePoly_pb_cw (p : Poly) : (writePoly .pb p s).cw = s.cw := rfl
@[simp] theorem writePoly_pb_mx (p : Poly) : (writePoly .pb p s).mx = s.mx := rfl
@[simp] theorem writePoly_pb_cfg (p : Poly) : (writePoly .pb p s).cfg = s.cfg := rfl
@[simp] theorem writePoly_pb_port (p : Poly) : (writePoly .pb p s).port = s.port := rfl

/-! ## `writePoly_pr` -/

@[simp] theorem writePoly_pr_ver (p : Poly) : (writePoly .pr p s).ver = s.ver := rfl
@[simp] theorem writePoly_pr_ecl (p : Poly) : (writePoly .pr p s).ecl = s.ecl := rfl
@[simp] theorem writePoly_pr_mask (p : Poly) : (writePoly .pr p s).mask = s.mask := rfl
@[simp] theorem writePoly_pr_n (p : Poly) : (writePoly .pr p s).n = s.n := rfl
@[simp] theorem writePoly_pr_bestpen (p : Poly) : (writePoly .pr p s).bestpen = s.bestpen := rfl
@[simp] theorem writePoly_pr_res (p : Poly) : (writePoly .pr p s).res = s.res := rfl
@[simp] theorem writePoly_pr_stage (p : Poly) : (writePoly .pr p s).stage = s.stage := rfl
@[simp] theorem writePoly_pr_err (p : Poly) : (writePoly .pr p s).err = s.err := rfl
@[simp] theorem writePoly_pr_fault (p : Poly) : (writePoly .pr p s).fault = s.fault := rfl
@[simp] theorem writePoly_pr_payload (p : Poly) : (writePoly .pr p s).payload = s.payload := rfl
@[simp] theorem writePoly_pr_pa (p : Poly) : (writePoly .pr p s).pa = s.pa := rfl
@[simp] theorem writePoly_pr_pb (p : Poly) : (writePoly .pr p s).pb = s.pb := rfl
@[simp] theorem writePoly_pr_pr (p : Poly) : (writePoly .pr p s).pr = p := rfl
@[simp] theorem writePoly_pr_db (p : Poly) : (writePoly .pr p s).db = s.db := rfl
@[simp] theorem writePoly_pr_ecb (p : Poly) : (writePoly .pr p s).ecb = s.ecb := rfl
@[simp] theorem writePoly_pr_bb (p : Poly) : (writePoly .pr p s).bb = s.bb := rfl
@[simp] theorem writePoly_pr_cw (p : Poly) : (writePoly .pr p s).cw = s.cw := rfl
@[simp] theorem writePoly_pr_mx (p : Poly) : (writePoly .pr p s).mx = s.mx := rfl
@[simp] theorem writePoly_pr_cfg (p : Poly) : (writePoly .pr p s).cfg = s.cfg := rfl
@[simp] theorem writePoly_pr_port (p : Poly) : (writePoly .pr p s).port = s.port := rfl

/-! ## Reading a polynomial register -/

@[simp] theorem readPoly_pa : readPoly .pa s = s.pa := rfl
@[simp] theorem readPoly_pb : readPoly .pb s = s.pb := rfl
@[simp] theorem readPoly_pr : readPoly .pr s = s.pr := rfl

/-- A register that was written reads back; every other one reads as before. -/
theorem readPoly_writePoly (r r' : PolyReg) (p : Poly) :
    readPoly r' (writePoly r p s) = if r' = r then p else readPoly r' s := by
  cases r <;> cases r' <;> rfl

end Sys2Proof.Machine
end

