-- ==== Sys2Proof/Laws/Ops.lean ====
section
/-! SUPPORT. What the shared operations can do, said once: a command, a sequence of checks, an append, a host event, a cell write. -/

namespace Sys2Proof.Machine

/-! ## Sequences of checks -/

/-- A sequence answers exactly where both of its parts answer. -/
theorem bind_eq_ok {α β : Type} {x : Except ErrorCode α} {f : α → Except ErrorCode β} {b : β} :
    (x >>= f) = .ok b ↔ ∃ a, x = .ok a ∧ f a = .ok b := by
  cases x with
  | ok a =>
    constructor
    · exact fun h => ⟨a, rfl, h⟩
    · rintro ⟨_, h, h'⟩
      cases h
      exact h'
  | error e =>
    constructor
    · exact fun h => nomatch h
    · rintro ⟨_, h, _⟩
      cases h

/-- A sequence fails where its first part fails, or its second after the first. -/
theorem bind_eq_error {α β : Type} {x : Except ErrorCode α} {f : α → Except ErrorCode β} {e : ErrorCode} :
    (x >>= f) = .error e ↔ x = .error e ∨ ∃ a, x = .ok a ∧ f a = .error e := by
  cases x with
  | ok a =>
    constructor
    · exact fun h => Or.inr ⟨a, rfl, h⟩
    · rintro (h | ⟨_, h, h'⟩)
      · cases h
      · cases h; exact h'
  | error e' =>
    constructor
    · exact fun h => Or.inl (by cases h; rfl)
    · rintro (h | ⟨_, h, _⟩)
      · cases h
        rfl
      · cases h

@[simp] theorem ok_bind {α β : Type} (a : α) (f : α → Except ErrorCode β) : ((Except.ok a) >>= f) = f a := rfl

@[simp] theorem error_bind {α β : Type} (e : ErrorCode) (f : α → Except ErrorCode β) :
    ((Except.error e : Except ErrorCode α) >>= f) = .error e := rfl

@[simp] theorem pure_eq_ok {α : Type} (a : α) : (pure a : Except ErrorCode α) = .ok a := rfl

@[simp] theorem throw_eq_error {α : Type} (e : ErrorCode) : (throw e : Except ErrorCode α) = .error e := rfl

/-- A sequence over a list fails nowhere where none of its elements fails, and answers their values. -/
theorem mapM_ok_of_forall {α β : Type} {f : α → Except ErrorCode β} {g : α → β} :
    ∀ {l : List α}, (∀ a ∈ l, f a = .ok (g a)) → l.mapM f = .ok (l.map g)
  | [], _ => rfl
  | a :: l, h => by
    rw [List.mapM_cons, h a (by simp), ok_bind, mapM_ok_of_forall (fun x hx => h x (by simp [hx]))]
    rfl

/-- What a sequence over a list answers: as many values, each that of its element. -/
theorem mapM_eq_ok {α β : Type} {f : α → Except ErrorCode β} :
    ∀ {l : List α} {r : List β}, l.mapM f = .ok r → r.length = l.length ∧ ∀ a ∈ l, ∃ b, f a = .ok b
  | [], r, h => by
    cases h
    exact ⟨rfl, by simp⟩
  | a :: l, r, h => by
    rw [List.mapM_cons, bind_eq_ok] at h
    obtain ⟨b, hb, h⟩ := h
    rw [bind_eq_ok] at h
    obtain ⟨r', hr', h⟩ := h
    cases h
    obtain ⟨hl, hall⟩ := mapM_eq_ok hr'
    refine ⟨by simp [hl], fun x hx => ?_⟩
    rcases List.mem_cons.1 hx with rfl | hx
    · exact ⟨b, hb⟩
    · exact hall x hx

/-- A sequence over a list fails only with an error of one of its elements. -/
theorem mapM_error {α β : Type} {f : α → Except ErrorCode β} {d : ErrorCode} (hf : ∀ a e, f a = .error e → e = d) :
    ∀ {l : List α} {e : ErrorCode}, l.mapM f = .error e → e = d
  | [], _, h => by cases h
  | a :: l, e, h => by
    rw [List.mapM_cons, bind_eq_error] at h
    rcases h with h | ⟨_, -, h⟩
    · exact hf a e h
    · rw [bind_eq_error] at h
      rcases h with h | ⟨_, -, h⟩
      · exact mapM_error hf h
      · cases h

/-! ## A command -/

@[simp] theorem command_of_fault {s : State} (h : s.fault = true) (body : Except ErrorCode State) :
    command s body = .next s := by simp [command, h]

@[simp] theorem command_ok {s : State} (h : s.fault = false) (t : State) : command s (.ok t) = .next (succeed t) := by
  simp [command, h]

@[simp] theorem command_error {s : State} (h : s.fault = false) (e : ErrorCode) :
    command s (.error e) = .next (raise e s) := by simp [command, h]

/-- Everything a command can do: it is discarded, it has its effect, or it raises one error and has none. -/
theorem command_cases {s t : State} {body : Except ErrorCode State} (h : command s body = .next t) :
    (s.fault = true ∧ t = s) ∨ (s.fault = false ∧ ∃ u, body = .ok u ∧ t = succeed u) ∨
      (s.fault = false ∧ ∃ e, body = .error e ∧ t = raise e s) := by
  cases hf : s.fault with
  | true =>
    rw [command_of_fault hf] at h
    cases h
    exact .inl ⟨rfl, rfl⟩
  | false =>
    cases body with
    | ok u =>
      rw [command_ok hf] at h
      cases h
      exact .inr (.inl ⟨rfl, u, rfl, rfl⟩)
    | error e =>
      rw [command_error hf] at h
      cases h
      exact .inr (.inr ⟨rfl, e, rfl, rfl⟩)

/-- A command always answers a next state. -/
theorem command_answers (s : State) (body : Except ErrorCode State) : ∃ t, command s body = .next t := by
  cases hf : s.fault with
  | true => exact ⟨s, command_of_fault hf body⟩
  | false =>
    cases body with
    | ok u => exact ⟨_, command_ok hf u⟩
    | error e => exact ⟨_, command_error hf e⟩

/-- Every meaning is a command: its effect is decided by a body, and the rest is said once, by `command_cases`. -/
theorem exec_is_command (i : Instr) (s : State) : ∃ body, exec i s = command s body := by
  cases i with
  | nop => exact ⟨.ok s, rfl⟩
  | gexp n => exact ⟨.ok (setRes ((gexp (signedImm n)).setWidth 32) s), rfl⟩
  | pclr r => exact ⟨.ok (writePoly r [] s), rfl⟩
  | dbrst => exact ⟨.ok { s with db := [] }, rfl⟩
  | bbrst => exact ⟨.ok { s with bb := [] }, rfl⟩
  | modcnt => exact ⟨.ok (setRes (s.n.setWidth 32) s), rfl⟩
  | plrst => exact ⟨.ok { s with payload := [] }, rfl⟩
  | glog _ | ppush _ _ | pmul | pmod | rsgen _ | dbpush _ | rsenc _ | vsel _ | setvl _ _ | bbput _ _ | bbenc | split
  | mxrst | mxpat | mxrsv | mxmap _ | mxfin | maskq _ _ _ | mxpen | mxbest | bchfmt _ | bchver _ | gen _
  | isdark _ _ | plpush _ => exact ⟨_, rfl⟩

/-- No command stops the machine: every error is a next state. -/
theorem exec_answers (i : Instr) (s : State) : ∃ t, exec i s = .next t := by
  obtain ⟨body, h⟩ := exec_is_command i s
  rw [h]
  exact command_answers s body

/-! ## Preconditions, operands and appends -/

theorem requireVersion_eq_ok {s : State} {u : Unit} : requireVersion s = .ok u ↔ s.ver ≠ 0#6 := by
  unfold requireVersion
  split <;> simp_all

theorem requireStage_eq_ok {allowed : List Stage} {s : State} {u : Unit} :
    requireStage allowed s = .ok u ↔ s.stage ∈ allowed := by
  unfold requireStage
  split <;> simp_all

theorem appendTo_eq_ok {α : Type} {buf extra r : List α} :
    appendTo buf extra = .ok r ↔ buf.length + extra.length ≤ lenMax ∧ r = buf ++ extra := by
  unfold appendTo
  split
  · constructor
    · exact fun h => nomatch h
    · rintro ⟨h, _⟩
      omega
  · constructor
    · intro h
      cases h
      exact ⟨by omega, rfl⟩
    · rintro ⟨_, rfl⟩
      rfl

@[simp] theorem zeros_length (k : Nat) : (zeros k).length = k := by simp [zeros]

/-! ## Host events -/

theorem step_idle {s : State} (h : s.port = []) : step s = .next s := by simp [step, hostStep, h]

theorem step_command {s : State} {w : Word} {rest : List HostEvent} (h : s.port = .command w :: rest) :
    step s = acceptWord exec w (popPort rest s) := by simp [step, hostStep, h]

theorem step_reset {s : State} {rest : List HostEvent} (h : s.port = .reset :: rest) :
    step s = .next (assertReset (popPort rest s)) := by simp [step, hostStep, h]

/-- Everything a step can do: hold, reset, discard a word, raise `IllegalCommand` on a word that is no command, or run a command. -/
theorem step_cases {s t : State} (h : step s = .next t) :
    (s.port = [] ∧ t = s) ∨
    (∃ rest, s.port = .reset :: rest ∧ t = assertReset (popPort rest s)) ∨
    (∃ w rest, s.port = .command w :: rest ∧ s.fault = true ∧ t = popPort rest s) ∨
    (∃ w rest e, s.port = .command w :: rest ∧ s.fault = false ∧ decode w = .error e ∧
      t = raise .illegalCommand (popPort rest s)) ∨
    (∃ w rest i, s.port = .command w :: rest ∧ s.fault = false ∧ decode w = .ok i ∧
      exec i (popPort rest s) = .next t) := by
  match hp : s.port with
  | [] =>
    rw [step_idle hp] at h
    cases h
    exact .inl ⟨rfl, rfl⟩
  | .reset :: rest =>
    rw [step_reset hp] at h
    cases h
    exact .inr (.inl ⟨rest, rfl, rfl⟩)
  | .command w :: rest =>
    rw [step_command hp] at h
    unfold acceptWord at h
    cases hf : s.fault with
    | true =>
      rw [popPort_fault, if_pos hf] at h
      cases h
      exact .inr (.inr (.inl ⟨w, rest, rfl, rfl, rfl⟩))
    | false =>
      rw [popPort_fault, if_neg (by simp [hf])] at h
      cases hd : decode w with
      | error e =>
        rw [hd] at h
        cases h
        exact .inr (.inr (.inr (.inl ⟨w, rest, e, rfl, rfl, hd, rfl⟩)))
      | ok i =>
        rw [hd] at h
        exact .inr (.inr (.inr (.inr ⟨w, rest, i, rfl, rfl, hd, h⟩)))

end Sys2Proof.Machine
end

