-- ==== Sys2Proof/Laws/Galois.lean ====
section
/-! SUPPORT. The field lookups: the tables undo each other (40_gf.md R81), and so do the two lookups. -/

namespace Sys2Proof.Machine

theorem logEntry_lt (n : Byte) : logEntry n < 255 := by
  revert n
  decide +kernel

theorem expEntry_logEntry {n : Byte} (h : n ≠ 0#8) : expEntry (logEntry n) = n := by
  revert n
  decide +kernel

theorem logEntry_expEntry {i : Nat} (h : i < 255) : logEntry (expEntry i) = i := by
  revert i
  decide +kernel

theorem expEntry_ne_zero {i : Nat} (h : i < 255) : expEntry i ≠ 0#8 := by
  revert i
  decide +kernel

theorem gexp_eq_expEntry (n : Int) : gexp n = expEntry (n % 255).toNat := rfl

theorem gexp_of_lt {i : Nat} (h : i < 255) : gexp (i : Int) = expEntry i := by
  rw [gexp_eq_expEntry]
  congr 1
  omega

theorem gexp_add_period (n : Int) : gexp (n + 255) = gexp n := by
  rw [gexp_eq_expEntry, gexp_eq_expEntry, Int.add_emod_right]

/-- A power of the generator is never 0 (40_gf.md R82). -/
theorem gexp_ne_zero (n : Int) : gexp n ≠ 0#8 := by
  rw [gexp_eq_expEntry]
  exact expEntry_ne_zero (by omega)

theorem gexp_logEntry {n : Byte} (h : n ≠ 0#8) : gexp (logEntry n : Int) = n := by
  rw [gexp_of_lt (logEntry_lt n), expEntry_logEntry h]

@[simp] theorem glog_zero : glog 0#8 = .error .glogZero := rfl

theorem glog_of_ne_zero {n : Byte} (h : n ≠ 0#8) : glog n = .ok (logEntry n) := by
  have : ¬ n.toNat < 1 := fun hn => h (BitVec.eq_of_toNat_eq (by simpa using hn))
  simp [glog, this, logEntry]

theorem glog_eq_ok {n : Byte} {l : Nat} : glog n = .ok l ↔ n ≠ 0#8 ∧ l = logEntry n := by
  by_cases h : n = 0#8
  · subst h
    simp
  · rw [glog_of_ne_zero h]
    exact ⟨fun e => ⟨h, by cases e; rfl⟩, fun ⟨_, e⟩ => by rw [e]⟩

theorem glog_eq_error {n : Byte} {e : ErrorCode} : glog n = .error e ↔ n = 0#8 ∧ e = .glogZero := by
  by_cases h : n = 0#8
  · subst h
    simp [eq_comm]
  · rw [glog_of_ne_zero h]
    simp [h]

theorem gfMul_of_ne_zero {x y : Byte} (hx : x ≠ 0#8) (hy : y ≠ 0#8) : gfMul x y = .ok (gfProduct x y) := by
  simp [gfMul, glog_of_ne_zero hx, glog_of_ne_zero hy, gfProduct]

theorem gfMul_eq_ok {x y z : Byte} : gfMul x y = .ok z ↔ x ≠ 0#8 ∧ y ≠ 0#8 ∧ z = gfProduct x y := by
  by_cases hx : x = 0#8
  · subst hx
    simp [gfMul]
  · by_cases hy : y = 0#8
    · subst hy
      simp [gfMul, glog_of_ne_zero hx]
    · rw [gfMul_of_ne_zero hx hy]
      simp [hx, hy, eq_comm]

theorem gfMul_error {x y : Byte} {e : ErrorCode} (h : gfMul x y = .error e) : e = .glogZero := by
  rw [gfMul, bind_eq_error] at h
  rcases h with h | ⟨_, -, h⟩
  · exact (glog_eq_error.1 h).2
  · rw [bind_eq_error] at h
    rcases h with h | ⟨_, -, h⟩
    · exact (glog_eq_error.1 h).2
    · cases h

/-- The product of two non-zero bytes is not 0 (41_poly.md R91). -/
theorem gfProduct_ne_zero (x y : Byte) : gfProduct x y ≠ 0#8 := gexp_ne_zero _

end Sys2Proof.Machine
end

