-- ==== Sys2Proof/Laws/Matrix.lean ====
section
/-! SUPPORT. The matrix: every operation keeps its shape, a written cell reads as written, and every other cell as before. -/

namespace Sys2Proof.Machine

/-! ## Shape -/

theorem unsetGrid_square (n : Nat) : Square n (unsetGrid n) := by
  refine ⟨by simp [unsetGrid], fun cells h => ?_⟩
  rw [unsetGrid, List.mem_replicate] at h
  simp [h.2]

theorem setCell_square {n : Nat} {g : Grid} (h : Square n g) (row col : Nat) (v : Cell) : Square n (setCell g row col v) := by
  refine ⟨by simp [setCell, h.1], fun cells hc => ?_⟩
  obtain ⟨i, hi, rfl⟩ := List.mem_iff_getElem.1 hc
  simp only [setCell, List.length_modify] at hi
  simp only [setCell, List.getElem_modify]
  split
  · simpa using h.2 _ (List.getElem_mem hi)
  · exact h.2 _ (List.getElem_mem hi)

theorem setCells_square {n : Nat} : ∀ (writes : List (Nat × Nat × Cell)) {g : Grid}, Square n g → Square n (setCells g writes)
  | [], _, h => h
  | w :: ws, _, h => setCells_square ws (setCell_square h w.1 w.2.1 w.2.2)

theorem setIfUnset_square {n : Nat} {g : Grid} (h : Square n g) (row col : Nat) (v : Cell) :
    Square n (setIfUnset g row col v) := by
  unfold setIfUnset
  split
  · exact setCell_square h row col v
  · exact h

/-- A fold of grid operations that each keep the shape keeps it. -/
theorem foldl_square {α : Type} {n : Nat} {f : Grid → α → Grid} (hf : ∀ g a, Square n g → Square n (f g a)) :
    ∀ (l : List α) {g : Grid}, Square n g → Square n (l.foldl f g)
  | [], _, h => h
  | a :: l, _, h => foldl_square hf l (hf _ a h)

theorem placeFinders_square {n : Nat} {g : Grid} (h : Square n g) (m : Nat) : Square n (placeFinders m g) :=
  setCells_square _ h

theorem placeAlignment_square {n : Nat} {g : Grid} (h : Square n g) (pos : List Nat) : Square n (placeAlignment pos g) := by
  refine foldl_square (fun g a hg => ?_) _ h
  unfold placeAnchor
  split
  · exact setCells_square _ hg
  · exact hg

theorem placeTiming_square {n : Nat} {g : Grid} (h : Square n g) (m : Nat) : Square n (placeTiming m g) :=
  foldl_square (fun _ k hg => setIfUnset_square hg 6 k _) _ (foldl_square (fun _ k hg => setIfUnset_square hg k 6 _) _ h)

theorem placePatterns_square {n : Nat} {g : Grid} (h : Square n g) (m : Nat) (pos : List Nat) :
    Square n (placePatterns m pos g) := placeTiming_square (placeAlignment_square (placeFinders_square h m) pos) m

theorem reserveMeta_square {n : Nat} {g : Grid} (h : Square n g) (m v : Nat) : Square n (reserveMeta m v g) :=
  setCells_square _ h

theorem writeMeta_square {n : Nat} {g : Grid} (h : Square n g) (m : Nat) (lvl : Level) (k : BitVec 3) (v : BitVec 6) :
    Square n (writeMeta m lvl k v g) := setCells_square _ h

theorem mapData_square {n : Nat} {g : Grid} (h : Square n g) (m : Nat) (cw : List Byte) (k : BitVec 3) :
    Square n (mapData m cw k g) := setCells_square _ h

theorem buildTrial_square (n v : Nat) (pos : List Nat) (cw : List Byte) (k : BitVec 3) :
    Square n (buildTrial n v pos cw k) :=
  mapData_square (reserveMeta_square (placePatterns_square (unsetGrid_square n) n pos) n v) n cw k

theorem buildFinal_square (n : Nat) (v : BitVec 6) (pos : List Nat) (cw : List Byte) (lvl : Level) (k : BitVec 3) :
    Square n (buildFinal n v pos cw lvl k) := writeMeta_square (buildTrial_square n v.toNat pos cw k) n lvl k v

/-! ## Reading a cell after a write -/

theorem getCell_setCell_same {n : Nat} {g : Grid} (h : Square n g) {row col : Nat} (hr : row < n) (hc : col < n) (v : Cell) :
    getCell (setCell g row col v) row col = v := by
  have hrow : row < g.length := by rw [h.1]; exact hr
  have hcol : col < (g[row]).length := by rw [h.2 _ (List.getElem_mem hrow)]; exact hc
  simp [getCell, setCell, List.getElem?_eq_getElem hrow, hcol]

theorem getCell_setCell_other (g : Grid) {row col row' col' : Nat} (h : row' ≠ row ∨ col' ≠ col) (v : Cell) :
    getCell (setCell g row col v) row' col' = getCell g row' col' := by
  unfold getCell setCell
  rw [List.getElem?_modify]
  by_cases hr : row = row'
  · subst hr
    have hc : col' ≠ col := by simpa using h
    cases hg : g[row]? with
    | none => simp
    | some cells => simp [Ne.symm hc]
  · simp [hr]

/-- A list of writes leaves every cell alone that it does not name. -/
theorem getCell_setCells_other {row col : Nat} :
    ∀ (writes : List (Nat × Nat × Cell)) (g : Grid), (∀ w ∈ writes, row ≠ w.1 ∨ col ≠ w.2.1) →
      getCell (setCells g writes) row col = getCell g row col
  | [], _, _ => rfl
  | w :: ws, g, h => by
    rw [setCells, List.foldl_cons]
    change getCell (setCells _ ws) row col = _
    rw [getCell_setCells_other ws _ (fun w' hw' => h w' (List.mem_cons_of_mem _ hw')),
      getCell_setCell_other g (h w (by simp))]

/-- A cell that several writes of a list name reads as the last of them wrote it. -/
theorem getCell_setCells_last {n : Nat} {g : Grid} (h : Square n g) {row col : Nat} (hr : row < n) (hc : col < n)
    (before after : List (Nat × Nat × Cell)) (v : Cell) (hafter : ∀ w ∈ after, row ≠ w.1 ∨ col ≠ w.2.1) :
    getCell (setCells g (before ++ (row, col, v) :: after)) row col = v := by
  rw [setCells, List.foldl_append, List.foldl_cons]
  change getCell (setCells (setCell (setCells g before) row col v) after) row col = v
  rw [getCell_setCells_other after _ hafter]
  exact getCell_setCell_same (setCells_square before h) hr hc v

theorem getCell_unsetGrid (n row col : Nat) : getCell (unsetGrid n) row col = .unset := by
  unfold getCell unsetGrid
  rw [List.getElem?_replicate]
  split
  · simp only [Option.bind_some, List.getElem?_replicate]
    split <;> rfl
  · rfl

/-- A cell once assigned stays assigned under a list of writes none of which unsets it. -/
theorem setCells_assigned {n : Nat} {row col : Nat} (hr : row < n) (hc : col < n) :
    ∀ (writes : List (Nat × Nat × Cell)) {g : Grid}, Square n g → (∀ w ∈ writes, w.2.2 ≠ .unset) →
      getCell g row col ≠ .unset → getCell (setCells g writes) row col ≠ .unset
  | [], _, _, _, h => h
  | w :: ws, g, hg, hw, h => by
    rw [setCells, List.foldl_cons]
    refine setCells_assigned hr hc ws (setCell_square hg _ _ _) (fun w' hw' => hw w' (List.mem_cons_of_mem _ hw')) ?_
    by_cases hsame : row = w.1 ∧ col = w.2.1
    · obtain ⟨h1, h2⟩ := hsame
      subst h1 h2
      rw [getCell_setCell_same hg hr hc]
      exact hw w (by simp)
    · rw [getCell_setCell_other g (by omega)]
      exact h

@[simp] theorem cellOfBool_ne_unset (b : Bool) : cellOfBool b ≠ .unset := by cases b <;> decide

/-- Every version's side is 4v + 17, between 21 and 177, and the 8-bit register holds it (46_matrix.md R146). -/
theorem moduleCount_toNat {v : BitVec 6} (h : v.toNat ≤ 40) : (moduleCount v).toNat = 4 * v.toNat + 17 := by
  simp only [moduleCount, BitVec.toNat_ofNat]
  omega

/-- Every version of 1..40 has a row of anchors. -/
theorem alignPositions_ok {v : Nat} (h1 : 1 ≤ v) (h2 : v ≤ 40) : ∃ pos, alignPositions v = .ok pos := by
  have hlen : alignPosTable.length = 40 := by decide
  unfold alignPositions
  rw [if_neg (by omega), List.getElem?_eq_getElem (by omega)]
  exact ⟨_, rfl⟩

/-- `BestMask` answers for every version of 1..40, with the registers of 47_mask_eval.md R183. -/
theorem runBestMask_ok {s : State} (h1 : 1 ≤ s.ver.toNat) (h2 : s.ver.toNat ≤ 40) :
    ∃ pos, alignPositions s.ver.toNat = .ok pos ∧ runBestMask s = .ok { s with
      n := moduleCount s.ver
      mx := buildFinal (moduleCount s.ver).toNat s.ver pos s.cw s.ecl
        (bestMask (moduleCount s.ver).toNat s.ver.toNat pos s.cw).1
      mask := (bestMask (moduleCount s.ver).toNat s.ver.toNat pos s.cw).1
      bestpen := BitVec.ofNat 32 (bestMask (moduleCount s.ver).toNat s.ver.toNat pos s.cw).2
      stage := .final } := by
  obtain ⟨pos, hpos⟩ := alignPositions_ok h1 h2
  exact ⟨pos, hpos, by rw [runBestMask, hpos]; rfl⟩

/-! ## Lines of the grid -/

@[simp] theorem rowLine_length (n : Nat) (g : Grid) (r : Nat) : (rowLine n g r).length = n := by simp [rowLine]

@[simp] theorem columnLine_length (n : Nat) (g : Grid) (c : Nat) : (columnLine n g c).length = n := by simp [columnLine]

/-- Cell `c` of row `r`. -/
theorem rowLine_getElem? {n c : Nat} (g : Grid) (r : Nat) (h : c < n) :
    (rowLine n g r)[c]? = some (decide (getCell g r c = .dark)) := by simp [rowLine, h]

/-- Cell `r` of column `c`. -/
theorem columnLine_getElem? {n r : Nat} (g : Grid) (c : Nat) (h : r < n) :
    (columnLine n g c)[r]? = some (decide (getCell g r c = .dark)) := by simp [columnLine, h]

end Sys2Proof.Machine
end

