-- ==== Sys2Proof/Laws/PerInstr.lean ====
section
/-! SUPPORT. The family `EncodeRow`: the word of every instruction matches its own row of 30_encoding.md R63, one lemma for each constructor. -/

namespace Sys2Proof

/-- A word whose unused fields are zero has the match word of its `op` under the format's mask (30_encoding.md R61, R64). -/
theorem pack_and_mask (fmt : Format) (f : Fields) (h : fmt.unusedZero f = true) : pack f &&& fmt.mask = f.op ++ 0#24 := by
  have hsplit : ∀ ma mb mc : Byte, (f.op ++ f.a ++ f.b ++ f.c) &&& (0xFF#8 ++ ma ++ mb ++ mc : Word)
      = (f.op ++ (f.a &&& ma) ++ (f.b &&& mb) ++ (f.c &&& mc) : Word) := by
    intro ma mb mc
    rw [BitVec.and_append, BitVec.and_append, BitVec.and_append, show (0xFF#8) = BitVec.allOnes 8 from rfl,
      BitVec.and_allOnes]
  have hzero : (f.op ++ 0#8 ++ 0#8 ++ 0#8 : Word) = f.op ++ 0#24 := by
    generalize f.op = x
    revert x
    decide +kernel
  rw [← hzero]
  cases fmt with
  | z => exact (hsplit 0xFF#8 0xFF#8 0xFF#8).trans (by simp_all [Format.unusedZero, Format.usesA, Format.usesB, Format.usesC])
  | a => exact (hsplit 0x00#8 0xFF#8 0xFF#8).trans (by simp_all [Format.unusedZero, Format.usesA, Format.usesB, Format.usesC])
  | c => exact (hsplit 0xFF#8 0xFF#8 0x00#8).trans (by simp_all [Format.unusedZero, Format.usesA, Format.usesB, Format.usesC])
  | ac => exact (hsplit 0x00#8 0xFF#8 0x00#8).trans (by simp_all [Format.unusedZero, Format.usesA, Format.usesB, Format.usesC])
  | i => exact (hsplit 0xFF#8 0x00#8 0x00#8).trans (by simp_all [Format.unusedZero, Format.usesA, Format.usesB, Format.usesC])
  | ai => exact (hsplit 0x00#8 0x00#8 0x00#8).trans (by simp_all [Format.unusedZero, Format.usesA, Format.usesB, Format.usesC])
  | bc => exact (hsplit 0xFF#8 0x00#8 0x00#8).trans (by simp_all [Format.unusedZero, Format.usesA, Format.usesB, Format.usesC])
  | abc => exact (hsplit 0x00#8 0x00#8 0x00#8).trans (by simp_all [Format.unusedZero, Format.usesA, Format.usesB, Format.usesC])

end Sys2Proof

namespace Sys2Proof.Laws.EncodeRow

/-- The instruction's `op` has a row of the command map, and its word is that row's under the row's mask. -/
def Statement (i : Instr) : Prop :=
  ∃ row ∈ encodingTable, row.op = opcodeOf i ∧ encode i &&& row.format.mask = row.matchWord

/-- The statement from a row of the map that names the `op` and whose unused fields the word leaves zero. -/
theorem of_row {i : Instr} (row : EncodingRow) (hrow : row ∈ encodingTable) (hop : row.op = opcodeOf i)
    (hop' : (fieldsFor i).op = opcodeOf i) (hz : row.format.unusedZero (fieldsFor i) = true) : Statement i :=
  ⟨row, hrow, hop, by rw [encode, pack_and_mask _ _ hz, hop', ← hop]; rfl⟩

theorem nop : Statement .nop := of_row ⟨0x00#8, "NOP", .z⟩ (by decide) rfl rfl rfl
theorem gexp (n : BitVec 16) : Statement (.gexp n) := of_row ⟨0x10#8, "GEXP", .i⟩ (by decide) rfl rfl rfl
theorem glog (n : Byte) : Statement (.glog n) := of_row ⟨0x11#8, "GLOG", .c⟩ (by decide) rfl rfl rfl
theorem pclr (r : PolyReg) : Statement (.pclr r) := of_row ⟨0x20#8, "PCLR", .a⟩ (by decide) rfl rfl rfl
theorem ppush (r : PolyReg) (v : Byte) : Statement (.ppush r v) := of_row ⟨0x21#8, "PPUSH", .ac⟩ (by decide) rfl rfl rfl
theorem pmul : Statement .pmul := of_row ⟨0x22#8, "PMUL", .z⟩ (by decide) rfl rfl rfl
theorem pmod : Statement .pmod := of_row ⟨0x23#8, "PMOD", .z⟩ (by decide) rfl rfl rfl
theorem rsgen (ec : Byte) : Statement (.rsgen ec) := of_row ⟨0x30#8, "RSGEN", .c⟩ (by decide) rfl rfl rfl
theorem dbrst : Statement .dbrst := of_row ⟨0x31#8, "DBRST", .z⟩ (by decide) rfl rfl rfl
theorem dbpush (v : Byte) : Statement (.dbpush v) := of_row ⟨0x32#8, "DBPUSH", .c⟩ (by decide) rfl rfl rfl
theorem rsenc (ec : Byte) : Statement (.rsenc ec) := of_row ⟨0x33#8, "RSENC", .c⟩ (by decide) rfl rfl rfl
theorem vsel (lvl : Level) : Statement (.vsel lvl) := of_row ⟨0x40#8, "VSEL", .a⟩ (by decide) rfl rfl rfl
theorem setvl (lvl : Level) (v : Byte) : Statement (.setvl lvl v) := of_row ⟨0x41#8, "SETVL", .ac⟩ (by decide) rfl rfl rfl
theorem bbrst : Statement .bbrst := of_row ⟨0x50#8, "BBRST", .z⟩ (by decide) rfl rfl rfl
theorem bbput (n : Byte) (val : BitVec 16) : Statement (.bbput n val) := of_row ⟨0x51#8, "BBPUT", .ai⟩ (by decide) rfl rfl rfl
theorem bbenc : Statement .bbenc := of_row ⟨0x52#8, "BBENC", .z⟩ (by decide) rfl rfl rfl
theorem split : Statement .split := of_row ⟨0x60#8, "SPLIT", .z⟩ (by decide) rfl rfl rfl
theorem mxrst : Statement .mxrst := of_row ⟨0x70#8, "MXRST", .z⟩ (by decide) rfl rfl rfl
theorem mxpat : Statement .mxpat := of_row ⟨0x71#8, "MXPAT", .z⟩ (by decide) rfl rfl rfl
theorem mxrsv : Statement .mxrsv := of_row ⟨0x72#8, "MXRSV", .z⟩ (by decide) rfl rfl rfl
theorem mxmap (k : Byte) : Statement (.mxmap k) := of_row ⟨0x73#8, "MXMAP", .c⟩ (by decide) rfl rfl rfl
theorem mxfin : Statement .mxfin := of_row ⟨0x74#8, "MXFIN", .z⟩ (by decide) rfl rfl rfl
theorem maskq (k : Byte) (row : Byte) (col : Byte) : Statement (.maskq k row col) := of_row ⟨0x75#8, "MASKQ", .abc⟩ (by decide) rfl rfl rfl
theorem mxpen : Statement .mxpen := of_row ⟨0x80#8, "MXPEN", .z⟩ (by decide) rfl rfl rfl
theorem mxbest : Statement .mxbest := of_row ⟨0x81#8, "MXBEST", .z⟩ (by decide) rfl rfl rfl
theorem bchfmt (d : Byte) : Statement (.bchfmt d) := of_row ⟨0x90#8, "BCHFMT", .c⟩ (by decide) rfl rfl rfl
theorem bchver (v : Byte) : Statement (.bchver v) := of_row ⟨0x91#8, "BCHVER", .c⟩ (by decide) rfl rfl rfl
theorem gen (lvl : Level) : Statement (.gen lvl) := of_row ⟨0xA0#8, "GEN", .a⟩ (by decide) rfl rfl rfl
theorem isdark (row : Byte) (col : Byte) : Statement (.isdark row col) := of_row ⟨0xA1#8, "ISDARK", .bc⟩ (by decide) rfl rfl rfl
theorem modcnt : Statement .modcnt := of_row ⟨0xA2#8, "MODCNT", .z⟩ (by decide) rfl rfl rfl
theorem plrst : Statement .plrst := of_row ⟨0xA3#8, "PLRST", .z⟩ (by decide) rfl rfl rfl
theorem plpush (v : Byte) : Statement (.plpush v) := of_row ⟨0xA4#8, "PLPUSH", .c⟩ (by decide) rfl rfl rfl

end Sys2Proof.Laws.EncodeRow
end

