-- ==== Sys2Proof/Laws/Polynomial.lean ====
section
/-! SUPPORT. The polynomial engine: what `strip`, the product and one iteration of the division answer, and when they fault. -/

namespace Sys2Proof.Machine

/-! ## Stripping and aligning -/

@[simp] theorem strip_nil : strip [] = [] := rfl

theorem strip_cons_zero (xs : List Byte) : strip (0#8 :: xs) = strip xs := by simp [strip]

theorem strip_cons_of_ne {x : Byte} (h : x ≠ 0#8) (xs : List Byte) : strip (x :: xs) = x :: xs := by simp [strip, h]

theorem strip_canonical : ∀ xs : List Byte, Canonical (strip xs)
  | [] => by simp [Canonical]
  | x :: xs => by
    by_cases h : x = 0#8
    · rw [h, strip_cons_zero]
      exact strip_canonical xs
    · rw [strip_cons_of_ne h]
      simpa [Canonical] using h

theorem strip_of_canonical : ∀ {p : Poly}, Canonical p → strip p = p
  | [], _ => rfl
  | _ :: _, h => strip_cons_of_ne (by simpa [Canonical] using h) _

theorem strip_length_le : ∀ xs : List Byte, (strip xs).length ≤ xs.length
  | [] => Nat.le_refl _
  | x :: xs => by
    by_cases h : x = 0#8
    · rw [h, strip_cons_zero]
      exact Nat.le_succ_of_le (strip_length_le xs)
    · rw [strip_cons_of_ne h]

/-- Stripping removes zeros at the front and nothing else. -/
theorem zeros_append_strip : ∀ xs : List Byte, zeros (xs.length - (strip xs).length) ++ strip xs = xs
  | [] => rfl
  | x :: xs => by
    by_cases h : x = 0#8
    · subst h
      rw [strip_cons_zero, List.length_cons, Nat.sub_add_comm (strip_length_le xs)]
      simpa [zeros, List.replicate_succ] using zeros_append_strip xs
    · simp [strip_cons_of_ne h, zeros]

@[simp] theorem xorLead_length : ∀ xs ys : List Byte, (xorLead xs ys).length = ys.length
  | [], _ => rfl
  | _ :: _, [] => rfl
  | _ :: xs, _ :: ys => by simp [xorLead, xorLead_length xs ys]

/-! ## The product -/

/-- A row of the product faults nowhere where neither factor has a zero coefficient. -/
theorem mulRow_ok {x : Byte} {b : Poly} (hx : x ≠ 0#8) (hb : NoZero b) :
    b.mapM (gfMul x) = .ok (b.map (gfProduct x)) :=
  mapM_ok_of_forall (fun y hy => gfMul_of_ne_zero hx (hb y hy))

theorem mulRows_ok {b : Poly} (hb : NoZero b) : ∀ {a : Poly}, NoZero a → ∃ r, mulRows a b = .ok r
  | [], _ => ⟨_, rfl⟩
  | x :: xs, ha => by
    obtain ⟨r, hr⟩ := mulRows_ok hb (fun y hy => ha y (List.mem_cons_of_mem _ hy) : NoZero xs)
    exact ⟨_, by rw [mulRows, mulRow_ok (ha x (by simp)) hb, ok_bind, hr, ok_bind, pure_eq_ok]⟩

/-- The length of the product before `Strip` (41_poly.md R91). -/
theorem mulRows_length {b : Poly} (hb : b ≠ []) :
    ∀ {a r : Poly}, mulRows a b = .ok r → r.length = a.length + b.length - 1
  | [], r, h => by
    cases h
    simp
  | x :: xs, r, h => by
    rw [mulRows, bind_eq_ok] at h
    obtain ⟨row, -, h⟩ := h
    rw [bind_eq_ok] at h
    obtain ⟨rest, hrest, h⟩ := h
    cases h
    have := mulRows_length hb hrest
    have := List.length_pos_iff.2 hb
    simp
    omega

/-- The product answers only where neither non-empty factor has a zero coefficient: every pair is looked up. -/
theorem mulRows_noZero {b : Poly} (hb : b ≠ []) : ∀ {a r : Poly}, mulRows a b = .ok r → a ≠ [] → NoZero a ∧ NoZero b
  | x :: xs, r, h, _ => by
    rw [mulRows, bind_eq_ok] at h
    obtain ⟨row, hrow, h⟩ := h
    rw [bind_eq_ok] at h
    obtain ⟨rest, hrest, -⟩ := h
    have hall := (mapM_eq_ok hrow).2
    have hx : x ≠ 0#8 := by
      obtain ⟨y, ys, rfl⟩ := List.exists_cons_of_ne_nil hb
      obtain ⟨z, hz⟩ := hall y (by simp)
      exact (gfMul_eq_ok.1 hz).1
    have hbz : NoZero b := fun y hy => by
      obtain ⟨z, hz⟩ := hall y hy
      exact (gfMul_eq_ok.1 hz).2.1
    refine ⟨fun y hy => ?_, hbz⟩
    rcases List.mem_cons.1 hy with rfl | hy
    · exact hx
    · exact (mulRows_noZero hb hrest (List.ne_nil_of_mem hy)).1 y hy

/-- Nothing but `GlogZero` comes out of a product. -/
theorem mulRows_error {b : Poly} {e : ErrorCode} : ∀ {a : Poly}, mulRows a b = .error e → e = .glogZero
  | [], h => by cases h
  | x :: xs, h => by
    rw [mulRows, bind_eq_error] at h
    rcases h with h | ⟨_, -, h⟩
    · exact mapM_error (fun y e h => gfMul_error h) h
    · rw [bind_eq_error] at h
      rcases h with h | ⟨_, -, h⟩
      · exact mulRows_error h
      · cases h

theorem polyMul_nil_left (b : Poly) : polyMul [] b = .ok [] := rfl

theorem polyMul_nil_right (a : Poly) : polyMul a [] = .ok [] := by cases a <;> rfl

/-- The product of two non-empty factors without a zero coefficient answers, with a product one shorter than the two together. -/
theorem polyMul_ok {a b : Poly} (ha : a ≠ []) (hb : b ≠ []) (hza : NoZero a) (hzb : NoZero b) :
    ∃ p, polyMul a b = .ok p ∧ p.length = a.length + b.length - 1 ∧ Canonical p := by
  obtain ⟨x, xs, rfl⟩ := List.exists_cons_of_ne_nil ha
  obtain ⟨y, ys, rfl⟩ := List.exists_cons_of_ne_nil hb
  obtain ⟨rest, hrest⟩ := mulRows_ok hzb (fun z hz => hza z (List.mem_cons_of_mem _ hz) : NoZero xs)
  have hrows : mulRows (x :: xs) (y :: ys) = .ok (xorLead ((y :: ys).map (gfProduct x)) (0#8 :: rest)) := by
    rw [mulRows, mulRow_ok (hza x (by simp)) hzb, ok_bind, hrest, ok_bind, pure_eq_ok]
  have hhead : strip (xorLead ((y :: ys).map (gfProduct x)) (0#8 :: rest))
      = xorLead ((y :: ys).map (gfProduct x)) (0#8 :: rest) := by
    rw [List.map_cons, xorLead]
    exact strip_cons_of_ne (by simpa using gfProduct_ne_zero x y) _
  refine ⟨strip (xorLead ((y :: ys).map (gfProduct x)) (0#8 :: rest)), ?_, ?_, strip_canonical _⟩
  · simp only [polyMul, List.isEmpty_cons, Bool.or_self, Bool.false_eq_true, if_false, hrows, ok_bind, pure_eq_ok]
  · rw [hhead]
    exact mulRows_length (by simp) hrows

/-! ## The remainder -/

/-- One iteration of the division faults nowhere where the leading coefficient and the divisor have no zero. -/
theorem modStep_ok {a b : Poly} (ha : lead a ≠ 0#8) (hlb : lead b ≠ 0#8) (hb : NoZero b) : ∃ a', modStep a b = .ok a' := by
  have hscaled : b.mapM (scaleTerm ((logEntry (lead a) : Int) - (logEntry (lead b) : Int)))
      = .ok (b.map (fun y => gexp ((logEntry y : Int) + ((logEntry (lead a) : Int) - (logEntry (lead b) : Int))))) :=
    mapM_ok_of_forall (fun y hy => by simp [scaleTerm, glog_of_ne_zero (hb y hy)])
  exact ⟨_, by rw [modStep, glog_of_ne_zero ha, ok_bind, glog_of_ne_zero hlb, ok_bind, hscaled, ok_bind, pure_eq_ok]⟩

/-- What an iteration answers is canonical. -/
theorem modStep_canonical {a b a' : Poly} (h : modStep a b = .ok a') : Canonical a' := by
  rw [modStep, bind_eq_ok] at h
  obtain ⟨_, -, h⟩ := h
  rw [bind_eq_ok] at h
  obtain ⟨_, -, h⟩ := h
  rw [bind_eq_ok] at h
  obtain ⟨_, -, h⟩ := h
  cases h
  exact strip_canonical _

/-- An iteration cancels the leading coefficient: the dividend gets shorter, so the division ends. -/
theorem modStep_shortens {a b a' : Poly} (h : modStep a b = .ok a') : a'.length < a.length := by
  rw [modStep, bind_eq_ok] at h
  obtain ⟨la, hla, h⟩ := h
  rw [bind_eq_ok] at h
  obtain ⟨lb, hlb, h⟩ := h
  rw [bind_eq_ok] at h
  obtain ⟨scaled, hs, h⟩ := h
  cases h
  obtain ⟨ha, rfl⟩ := glog_eq_ok.1 hla
  obtain ⟨hb, rfl⟩ := glog_eq_ok.1 hlb
  match a, b, ha, hb, hs with
  | x :: xs, y :: ys, ha, hb, hs =>
    rw [List.mapM_cons, bind_eq_ok] at hs
    obtain ⟨z, hz, hs⟩ := hs
    rw [bind_eq_ok] at hs
    obtain ⟨zs, -, hs⟩ := hs
    cases hs
    have hzx : z = x := by
      simp only [lead, List.headD_cons] at ha hb hz
      simp only [scaleTerm, glog_of_ne_zero hb, ok_bind, pure_eq_ok, Except.ok.injEq] at hz
      rw [← hz, show ((logEntry y : Int) + ((logEntry x : Int) - (logEntry y : Int))) = (logEntry x : Int) by omega,
        gexp_logEntry ha]
    rw [xorLead, hzx, BitVec.xor_self, strip_cons_zero]
    exact Nat.lt_succ_of_le (Nat.le_trans (strip_length_le _) (by simp))

/-- Nothing but `GlogZero` comes out of an iteration. -/
theorem modStep_error {a b : Poly} {e : ErrorCode} (h : modStep a b = .error e) : e = .glogZero := by
  rw [modStep, bind_eq_error] at h
  rcases h with h | ⟨_, -, h⟩
  · exact (glog_eq_error.1 h).2
  rw [bind_eq_error] at h
  rcases h with h | ⟨_, -, h⟩
  · exact (glog_eq_error.1 h).2
  rw [bind_eq_error] at h
  rcases h with h | ⟨_, -, h⟩
  · refine mapM_error (fun y e h => ?_) h
    rw [scaleTerm, bind_eq_error] at h
    rcases h with h | ⟨_, -, h⟩
    · exact (glog_eq_error.1 h).2
    · cases h
  · cases h

end Sys2Proof.Machine
end

