-- ==== Sys2Proof/Laws/ReedSolomon.lean ====
section
/-! SUPPORT. The generator polynomial: it exists for every `ec` of 0..255 and has no zero coefficient up to `ec = 254`.
The proof runs the recursion of 42_rs.md R100 over `Nat`, which the kernel does fast, and shows that run to be the model's. -/

namespace Sys2Proof.Machine

/-! ## The tables as two numbers -/

/-- `EXP`, byte `i` the entry `i`. -/
def expRom : Nat := 0x8E47ADD86C361B83CFE9FA7DB0582C160B8BCBEBFBF3F7F5F47A3D90482412098A45AC562B9BC3EFF9F279B259A251A653A7DDE070381C0E078DC86432198241AE57A5DC6E3795C46231964BABDBE3FFF1F67BB3D7E5FC7E3F91C663BFD1E673B7D5E472399249AA55A452299A4DA8542A158442219E4FA9DA6DB85C2E1785CC663397C5EC763B93C7EDF87C3E1F81CE67BDD068341A0D884422118643AFD9E271B65BA3DFE1FE7FB1D66BBBD3E7FDF0783C1E0F89CA65BC5E2F99C261BE5FA1DE6FB9D269BA5DA05028140A058C46239FC1EE77B5D46A35944A259C4E279DC06030180C06038FC9EA75B45A2D984C261387CDE8743A1D8040201008040201

/-- `LOG`, byte `n` the entry `n`. -/
def logRom : Nat := 0xAF5850A8EAF4D674E8ADE7E6E9D5AE4FD72C757AEB16F50B51A0A99CB05F59CB5A3ECCBBB18660FBAA559D29523BA16CF66F0C7FEC4917C476A47BB7D8432D1FA2416D4753393C849E5D2A14ABD356F261BEFCDCB2978790CDCFBC955BD13F372E892023D99244117CB4B8267799A5E318FEC531EDDE4A670D63808CF7C0700757A7F373ACE5D44E2B79150A9F9B5ECA3DBA85FA54283A6B6E7E48C3A3B6421E404638835C13D2F1BDDB968FCE94D03688229110B32598E2FD30DD66628BBF06A672E44D78099AC9B9F9276A7DC2B51D458212F0DA8E9335210F24E12F658A05714C08C8F869C11C81EF8D340EE064044BC7681BEE33DF03C61A320219010000

/-- Byte `i` of a table kept as a number. -/
def romByte (rom i : Nat) : Nat := (rom >>> (8 * i)) % 256

theorem expEntry_eq_rom {i : Nat} (h : i < 255) : expEntry i = BitVec.ofNat 8 (romByte expRom i) := by
  revert i
  decide +kernel

theorem logEntry_eq_rom (n : Byte) : logEntry n = romByte logRom n.toNat := by
  revert n
  decide +kernel

theorem romByte_lt (rom i : Nat) : romByte rom i < 256 := Nat.mod_lt _ (by decide)

/-! ## The recursion over `Nat` -/

/-- `xs` times `[1, Gexp(k)]` before `Strip`, on numbers; empty where a coefficient of `xs` is 0. -/
def romRows (k : Nat) : List Nat → List Nat
  | [] => [0]
  | x :: xs =>
    match romRows k xs with
    | [] => []
    | r :: rs =>
      match Nat.beq x 0 with
      | true => []
      | false => x :: (romByte expRom ((romByte logRom x + k) % 255) ^^^ r) :: rs

/-- `Generator(k)` on numbers; empty where it faults. -/
def romGenerator : Nat → List Nat
  | 0 => [1]
  | k + 1 =>
    match romGenerator k with
    | [] => []
    | g :: gs => romRows k (g :: gs)

/-- A list of numbers as bytes. -/
def romBytes (r : List Nat) : List Byte := r.map (BitVec.ofNat 8)

theorem gexp_zero : gexp 0 = 1#8 := by decide

theorem gfProduct_one {x : Byte} (h : x ≠ 0#8) : gfProduct x 1#8 = x := by
  have h1 : logEntry 1#8 = 0 := by decide
  rw [gfProduct, h1]
  simpa using gexp_logEntry h

theorem gfProduct_gexp (x : Byte) {k : Nat} (h : k < 255) :
    gfProduct x (gexp (k : Int)) = BitVec.ofNat 8 (romByte expRom ((romByte logRom x.toNat + k) % 255)) := by
  rw [gfProduct, gexp_of_lt h, logEntry_expEntry h, gexp_eq_expEntry, logEntry_eq_rom x,
    expEntry_eq_rom (by omega)]
  congr 2

/-- The run over numbers, where it answers, is the product of the model. -/
theorem romRows_sound {k : Nat} (hk : k < 255) :
    ∀ {xs : List Nat}, (∀ x ∈ xs, x < 256) → romRows k xs ≠ [] →
      mulRows (romBytes xs) [1#8, gexp (k : Int)] = .ok (romBytes (romRows k xs)) ∧
      NoZero (romBytes xs) ∧ (∀ r ∈ romRows k xs, r < 256)
  | [], _, _ => by simp [romRows, romBytes, mulRows, zeros, NoZero]
  | x :: xs, hlt, hne => by
    cases hrest : romRows k xs with
    | nil => simp [romRows, hrest] at hne
    | cons r rs =>
      have hx0 : Nat.beq x 0 = false := by
        cases hb : Nat.beq x 0 with
        | false => rfl
        | true => simp [romRows, hrest, hb] at hne
      obtain ⟨hmul, hnz, hbound⟩ := romRows_sound hk (xs := xs) (fun y hy => hlt y (List.mem_cons_of_mem _ hy))
        (by rw [hrest]; simp)
      have hxlt : x < 256 := hlt x (by simp)
      have hxne : (BitVec.ofNat 8 x) ≠ 0#8 := by
        intro h
        have h' : x = 0 := by simpa [Nat.mod_eq_of_lt hxlt] using congrArg BitVec.toNat h
        subst h'
        cases hx0
      have hrow : [1#8, gexp (k : Int)].mapM (gfMul (BitVec.ofNat 8 x)) =
          .ok [BitVec.ofNat 8 x, BitVec.ofNat 8 (romByte expRom ((romByte logRom x + k) % 255))] := by
        rw [mulRow_ok hxne (by simp [NoZero, gexp_ne_zero])]
        simp only [List.map_cons, List.map_nil, gfProduct_one hxne, gfProduct_gexp _ hk,
          BitVec.toNat_ofNat, Nat.mod_eq_of_lt hxlt]
      have hval : romRows k (x :: xs) = x :: (romByte expRom ((romByte logRom x + k) % 255) ^^^ r) :: rs := by
        simp [romRows, hrest, hx0]
      refine ⟨?_, ?_, ?_⟩
      · rw [hval, romBytes, List.map_cons, mulRows, hrow, ok_bind]
        change (mulRows (romBytes xs) _ >>= _) = _
        rw [hmul, hrest, ok_bind, pure_eq_ok]
        simp [romBytes, xorLead, BitVec.ofNat_xor]
      · intro y hy
        rcases List.mem_cons.1 hy with rfl | hy
        · exact hxne
        · exact hnz y hy
      · rw [hval]
        intro y hy
        rcases List.mem_cons.1 hy with rfl | hy
        · exact hxlt
        · rcases List.mem_cons.1 hy with rfl | hy
          · exact Nat.xor_lt_two_pow (n := 8) (romByte_lt _ _) (hbound r (by simp [hrest]))
          · exact hbound y (by simp [hrest, hy])

/-- The run over numbers reaches `ec = 255`, where every inner coefficient is 0 (42_rs.md R100). -/
theorem romGenerator_255 : romGenerator 255 = 1 :: List.replicate 254 0 ++ [1] := by decide +kernel

theorem romGenerator_ne_nil {k : Nat} (h : k ≤ 255) : romGenerator k ≠ [] := by
  have hstep : ∀ j, romGenerator (j + 1) ≠ [] → romGenerator j ≠ [] := by
    intro j hj hn
    simp [romGenerator, hn] at hj
  have hall : ∀ d, d ≤ 255 → romGenerator (255 - d) ≠ [] := by
    intro d
    induction d with
    | zero =>
      intro _
      rw [Nat.sub_zero, romGenerator_255]
      exact List.cons_ne_nil _ _
    | succ d ih =>
      intro hd
      apply hstep
      rw [show 255 - (d + 1) + 1 = 255 - d by omega]
      exact ih (by omega)
  have := hall (255 - k) (by omega)
  rwa [show 255 - (255 - k) = k by omega] at this

/-- The model's generator polynomial is the run over numbers. -/
theorem generator_eq_rom :
    ∀ {ec : Nat}, ec ≤ 255 → generator ec = .ok (romBytes (romGenerator ec)) ∧ ∀ x ∈ romGenerator ec, x < 256
  | 0, _ => by
    simp [generator, romGenerator, romBytes]
  | ec + 1, h => by
    obtain ⟨hg, hlt⟩ := generator_eq_rom (show ec ≤ 255 by omega)
    obtain ⟨x, xs, hxs⟩ := List.exists_cons_of_ne_nil (romGenerator_ne_nil (show ec ≤ 255 by omega))
    have hval : romGenerator (ec + 1) = romRows ec (romGenerator ec) := by simp [romGenerator, hxs]
    obtain ⟨hmul, hnz, hbound⟩ := romRows_sound (show ec < 255 by omega) hlt
      (by rw [← hval]; exact romGenerator_ne_nil h)
    refine ⟨?_, by rw [hval]; exact hbound⟩
    rw [generator, hg, ok_bind, polyMul, hval]
    have hne : (romBytes (romGenerator ec)).isEmpty = false := by simp [hxs, romBytes]
    simp only [hne, List.isEmpty_cons, Bool.or_self, Bool.false_eq_true, if_false, hmul, ok_bind, pure_eq_ok]
    have hhead : ∃ tail, romRows ec (romGenerator ec) = x :: tail := by
      have hne' : romRows ec (x :: xs) ≠ [] := by
        rw [← hxs, ← hval]
        exact romGenerator_ne_nil h
      rw [hxs]
      rw [romRows] at hne' ⊢
      split at hne'
      · exact absurd rfl hne'
      · split at hne'
        · exact absurd rfl hne'
        · exact ⟨_, rfl⟩
    obtain ⟨tail, htail⟩ := hhead
    have hx : BitVec.ofNat 8 x ≠ 0#8 := hnz _ (by simp [hxs, romBytes])
    rw [htail, romBytes, List.map_cons, strip_cons_of_ne hx]

theorem romGenerator_length : ∀ {ec : Nat}, ec ≤ 255 → (romGenerator ec).length = ec + 1
  | 0, _ => rfl
  | ec + 1, h => by
    obtain ⟨hg, -⟩ := generator_eq_rom (show ec ≤ 255 by omega)
    obtain ⟨hg', -⟩ := generator_eq_rom h
    have ih := romGenerator_length (show ec ≤ 255 by omega)
    have hne : romBytes (romGenerator ec) ≠ [] := fun hn => by
      have := congrArg List.length hn
      simp [romBytes, ih] at this
    rw [generator, hg, ok_bind] at hg'
    have hnz : NoZero (romBytes (romGenerator ec)) := by
      by_contra hz
      have : ∃ r, mulRows (romBytes (romGenerator ec)) [1#8, gexp (ec : Int)] = .ok r := by
        rw [polyMul] at hg'
        have hne' : (romBytes (romGenerator ec)).isEmpty = false := by simpa using hne
        simp only [hne', List.isEmpty_cons, Bool.or_self, Bool.false_eq_true, if_false] at hg'
        rw [bind_eq_ok] at hg'
        obtain ⟨r, hr, -⟩ := hg'
        exact ⟨r, hr⟩
      obtain ⟨r, hr⟩ := this
      exact hz (mulRows_noZero (by simp) hr hne).1
    obtain ⟨p, hp, hlen, -⟩ := polyMul_ok hne (by simp) hnz
      (show NoZero [1#8, gexp (ec : Int)] by simp [NoZero, gexp_ne_zero])
    rw [hp] at hg'
    cases hg'
    simpa [romBytes, ih] using hlen

/-- `Generator(ec)` exists for every `ec` of 0..255, with `ec + 1` coefficients. -/
theorem generator_ok {ec : Nat} (h : ec ≤ 255) : ∃ g, generator ec = .ok g ∧ g.length = ec + 1 :=
  ⟨_, (generator_eq_rom h).1, by simp [romBytes, romGenerator_length h]⟩

/-- Up to `ec = 254` no coefficient of the generator is 0, so no division by it faults. -/
theorem generator_noZero {ec : Nat} {g : Poly} (h : ec ≤ 254) (hg : generator ec = .ok g) : NoZero g := by
  obtain ⟨hrom, -⟩ := generator_eq_rom (show ec ≤ 255 by omega)
  obtain ⟨g', hg', -⟩ := generator_ok (show ec + 1 ≤ 255 by omega)
  rw [generator, hg, ok_bind, polyMul] at hg'
  have hlen := (generator_ok (show ec ≤ 255 by omega))
  obtain ⟨g'', h'', hl⟩ := hlen
  rw [hg] at h''
  cases h''
  have hne : g ≠ [] := fun hn => by simp [hn] at hl
  have hne' : g.isEmpty = false := by simpa using hne
  simp only [hne', List.isEmpty_cons, Bool.or_self, Bool.false_eq_true, if_false] at hg'
  rw [bind_eq_ok] at hg'
  obtain ⟨r, hr, -⟩ := hg'
  exact (mulRows_noZero (by simp) hr hne).1

/-- `Generator(255)` is x^255 + 1: its inner coefficients are all 0, so a division by it faults. -/
theorem generator_255 : generator 255 = .ok (1#8 :: zeros 254 ++ [1#8]) := by
  rw [(generator_eq_rom (Nat.le_refl 255)).1, romGenerator_255, romBytes, List.map_append, List.map_cons,
    List.map_replicate, zeros]
  rfl

/-! ## The block table -/

/-- Every version of 1..40 has a row; the table lookup faults nowhere else. -/
theorem blockGroups_ok {v : Nat} (lvl : Level) (h1 : 1 ≤ v) (h2 : v ≤ 40) : ∃ g, blockGroups v lvl = .ok g := by
  have hlen : rsBlockTable.length = 40 := by decide
  unfold blockGroups
  rw [if_neg (by omega), List.getElem?_eq_getElem (by omega)]
  cases lvl <;> exact ⟨_, rfl⟩

theorem blocks_ok {v : Nat} (lvl : Level) (h1 : 1 ≤ v) (h2 : v ≤ 40) : ∃ bs, blocks v lvl = .ok bs := by
  obtain ⟨g, hg⟩ := blockGroups_ok lvl h1 h2
  exact ⟨_, by rw [blocks, hg, ok_bind, pure_eq_ok]⟩

theorem dataCw_ok {v : Nat} (lvl : Level) (h1 : 1 ≤ v) (h2 : v ≤ 40) : ∃ d, dataCw v lvl = .ok d := by
  obtain ⟨bs, hbs⟩ := blocks_ok lvl h1 h2
  exact ⟨_, by rw [dataCw, hbs, ok_bind, pure_eq_ok]⟩

theorem totalCw_ok {v : Nat} (lvl : Level) (h1 : 1 ≤ v) (h2 : v ≤ 40) : ∃ t, totalCw v lvl = .ok t := by
  obtain ⟨bs, hbs⟩ := blocks_ok lvl h1 h2
  exact ⟨_, by rw [totalCw, hbs, ok_bind, pure_eq_ok]⟩

end Sys2Proof.Machine
end

