-- ==== Sys2Proof/Tests/Slice0.lean ====
section
/-! SUPPORT. Tests against the spec's worked examples, the smoke test of WellFormed, decoding of words written out from the encoding,
and for every statement with hypotheses a witness that meets them. -/

namespace Sys2Proof.Tests

-- One test after the other: kernel evaluations that wait for each other, each in its own thread, exhaust the memory limit.
set_option Elab.async false

open Sys2Proof.Machine

/-! ## Helpers -/

/-- The state a command leaves. -/
def after (i : Instr) (s : State) : State :=
  match exec i s with
  | .next t => t
  | .fault _ => s
  | .refused _ => s

/-- "HELLO WORLD", the payload of the spec's worked example. -/
def hello : List Byte :=
  [0x48#8, 0x45#8, 0x4C#8, 0x4C#8, 0x4F#8, 0x20#8, 0x57#8, 0x4F#8, 0x52#8, 0x4C#8, 0x44#8]

/-- The data codewords of that payload at version 1 level M (44_bitbuf.md R124). -/
def helloData : List Byte :=
  [0x40#8, 0xB4#8, 0x84#8, 0x54#8, 0xC4#8, 0xC4#8, 0xF2#8, 0x05#8, 0x74#8, 0xF5#8, 0x24#8, 0xC4#8, 0x40#8, 0xEC#8, 0x11#8, 0xEC#8]

/-- The parity of that block (45_block_split.md R138). -/
def helloParity : List Byte := [0x0C#8, 0x4B#8, 0xCF#8, 0x9A#8, 0x89#8, 0x4F#8, 0x65#8, 0x09#8, 0x97#8, 0xCC#8]

/-- Bytes as bits, most significant first. -/
def bitsOf (bs : List Byte) : List Bool := bs.flatMap (fun b => (List.range 8).map (fun i => b.getLsbD (7 - i)))

/-- A state with version 1 selected, level M. -/
def version1 : State := { State.reset with ver := 1#6 }

/-- A grid of one kind of cell. -/
def plainGrid (n : Nat) (c : Cell) : Grid := List.replicate n (List.replicate n c)

/-- A version-1 state in the given stage, its grid all of one kind of cell. -/
def staged (st : Stage) (c : Cell) : State := { version1 with n := 21#8, stage := st, mx := plainGrid 21 c }

/-- The number of unset cells. -/
def unsetCount (g : Grid) : Nat := (g.map (fun cells => cells.count Cell.unset)).sum

/-! ## Decoding: a word of every constructor, written out from 30_encoding.md R60 to R63 -/

theorem test_decode_system :
    decode 0x00000000#32 = .ok .nop ∧ decode 0xA0000000#32 = .ok (.gen .m) ∧ decode 0xA0030000#32 = .ok (.gen .q) ∧
    decode 0xA1001400#32 = .ok (.isdark 20#8 0#8) ∧ decode 0xA2000000#32 = .ok .modcnt ∧
    decode 0xA3000000#32 = .ok .plrst ∧ decode 0xA4000048#32 = .ok (.plpush 0x48#8) := by decide

theorem test_decode_field : decode 0x1000FFFF#32 = .ok (.gexp (-1#16)) ∧ decode 0x10000008#32 = .ok (.gexp 8#16) ∧
    decode 0x1100001D#32 = .ok (.glog 29#8) := by decide

theorem test_decode_polynomial :
    decode 0x20000000#32 = .ok (.pclr .pa) ∧ decode 0x2101001D#32 = .ok (.ppush .pb 0x1D#8) ∧
    decode 0x20020000#32 = .ok (.pclr .pr) ∧ decode 0x22000000#32 = .ok .pmul ∧ decode 0x23000000#32 = .ok .pmod := by decide

theorem test_decode_reed_solomon : decode 0x30000002#32 = .ok (.rsgen 2#8) ∧ decode 0x31000000#32 = .ok .dbrst ∧
    decode 0x32000040#32 = .ok (.dbpush 0x40#8) ∧ decode 0x3300000A#32 = .ok (.rsenc 10#8) := by decide

theorem test_decode_version : decode 0x40000000#32 = .ok (.vsel .m) ∧ decode 0x40010000#32 = .ok (.vsel .l) ∧
    decode 0x41030008#32 = .ok (.setvl .q 8#8) ∧ decode 0x41000001#32 = .ok (.setvl .m 1#8) ∧
    decode 0x41020028#32 = .ok (.setvl .h 40#8) := by decide

theorem test_decode_buffer : decode 0x50000000#32 = .ok .bbrst ∧ decode 0x51040004#32 = .ok (.bbput 4#8 4#16) ∧
    decode 0x5110ABCD#32 = .ok (.bbput 16#8 0xABCD#16) ∧ decode 0x52000000#32 = .ok .bbenc ∧
    decode 0x60000000#32 = .ok .split := by decide

theorem test_decode_matrix : decode 0x70000000#32 = .ok .mxrst ∧ decode 0x71000000#32 = .ok .mxpat ∧
    decode 0x72000000#32 = .ok .mxrsv ∧ decode 0x73000007#32 = .ok (.mxmap 7#8) ∧ decode 0x74000000#32 = .ok .mxfin ∧
    decode 0x75000204#32 = .ok (.maskq 0#8 2#8 4#8) ∧ decode 0x80000000#32 = .ok .mxpen ∧
    decode 0x81000000#32 = .ok .mxbest := by decide

theorem test_decode_bch : decode 0x90000003#32 = .ok (.bchfmt 3#8) ∧ decode 0x9000001F#32 = .ok (.bchfmt 31#8) ∧
    decode 0x91000007#32 = .ok (.bchver 7#8) ∧ decode 0x9100003F#32 = .ok (.bchver 63#8) := by decide

/-- The decoder refuses the word, for the given reason. -/
def refusedAs (e : DecodeError) (w : Word) : Bool :=
  match decode w with
  | .ok _ => false
  | .error e' => decide (e' = e)

/-- Words of no command: undefined codes (R65). -/
theorem test_decode_undefined_words :
    [0x01000000#32, 0x12000000#32, 0x24000000#32, 0xA5000000#32, 0xFF000000#32].all (refusedAs .undefinedOp) = true := by
  decide +kernel

/-- A non-zero unused field in every format (R64). -/
theorem test_decode_unused_fields :
    [0x00000001#32, 0x00010000#32, 0x10010000#32, 0x11010000#32, 0x11000100#32, 0x20000001#32, 0x21000100#32,
      0x22000100#32, 0x40000001#32, 0x41000101#32, 0x73010000#32, 0xA1010000#32, 0xA4000100#32].all
      (refusedAs .nonzeroUnusedField) = true := by decide +kernel

/-- Every operand one past its range (R66). -/
theorem test_decode_operands_out_of_range :
    [0x20030000#32, 0x21030000#32, 0x40040000#32, 0xA0040000#32, 0x41040001#32, 0x41000000#32, 0x41000029#32, 0x51110000#32,
      0x73000008#32, 0x75080000#32, 0x90000020#32, 0x91000040#32].all (refusedAs .operandOutOfRange) = true := by decide +kernel

/-! ## WellFormed: one ill-formed term for each check -/

theorem test_wellFormed_refuses :
    Instr.wellFormed (.setvl .m 0#8) = false ∧ Instr.wellFormed (.setvl .m 41#8) = false ∧
    Instr.wellFormed (.bbput 17#8 0#16) = false ∧ Instr.wellFormed (.mxmap 8#8) = false ∧
    Instr.wellFormed (.maskq 8#8 0#8 0#8) = false ∧ Instr.wellFormed (.bchfmt 32#8) = false ∧
    Instr.wellFormed (.bchver 64#8) = false := by decide

theorem test_wellFormed_accepts :
    Instr.wellFormed (.setvl .m 1#8) = true ∧ Instr.wellFormed (.setvl .m 40#8) = true ∧
    Instr.wellFormed (.bbput 16#8 0#16) = true ∧ Instr.wellFormed (.mxmap 7#8) = true ∧
    Instr.wellFormed (.maskq 7#8 0#8 0#8) = true ∧ Instr.wellFormed (.bchfmt 31#8) = true ∧
    Instr.wellFormed (.bchver 63#8) = true := by decide

/-! ## One step of each command, against the examples of its rule -/

/-- 40_gf.md R85. -/
theorem test_gexp : (after (.gexp (-1#16)) .reset).res = 142#32 ∧ (after (.gexp 0x7FFF#16) .reset).res = 204#32 ∧
    (after (.gexp 0x8000#16) .reset).res = 204#32 ∧ (after (.gexp 255#16) .reset).res = 1#32 := by decide +kernel

/-- 40_gf.md R86. -/
theorem test_glog : (after (.glog 29#8) .reset).res = 8#32 ∧ (after (.glog 142#8) .reset).res = 254#32 ∧
    (after (.glog 0#8) .reset).fault = true ∧ (after (.glog 0#8) .reset).err = .failed .glogZero := by decide +kernel

/-- 41_poly.md R94: 0 is stripped from an empty register and kept in a non-empty one. -/
theorem test_ppush : (after (.ppush .pb 0#8) .reset).pb = [] ∧
    (after (.ppush .pb 0#8) { State.reset with pb := [1#8] }).pb = [1#8, 0#8] := by decide

/-- 41_poly.md R93. -/
theorem test_pclr : (after (.pclr .pa) { State.reset with pa := [1#8], pb := [2#8] }).pa = [] ∧
    (after (.pclr .pa) { State.reset with pa := [1#8], pb := [2#8] }).pb = [2#8] := by decide

/-- 41_poly.md R95. -/
theorem test_pmul : (after .pmul { State.reset with pa := [1#8, 1#8], pb := [1#8, 2#8] }).pr = [1#8, 3#8, 2#8] ∧
    (after .pmul { State.reset with pa := [255#8], pb := [255#8] }).pr = [226#8] := by decide +kernel

theorem test_pmul_zero_coefficient : (after .pmul { State.reset with pa := [1#8, 0#8, 1#8], pb := [1#8] }).fault = true ∧
    (after .pmul { State.reset with pa := [1#8, 0#8, 1#8] }).err = .ok := by decide +kernel

/-- 41_poly.md R96. -/
theorem test_pmod :
    (after .pmod { State.reset with pa := [18#8, 52#8, 86#8, 0#8, 0#8], pb := [1#8, 3#8, 2#8] }).pr = [152#8, 232#8] ∧
    (after .pmod { State.reset with pa := [7#8, 7#8], pb := [1#8, 1#8] }).pr = [] := by decide +kernel

theorem test_pmod_empty_divisor : (after .pmod { State.reset with pa := [5#8] }).err = .failed .glogZero ∧
    (after .pmod { State.reset with pa := [5#8], pb := [1#8, 0#8] }).pr = [5#8] := by decide +kernel

/-- 42_rs.md R100, R102. -/
theorem test_rsgen : (after (.rsgen 7#8) .reset).pr = [1#8, 127#8, 122#8, 154#8, 164#8, 11#8, 68#8, 117#8] ∧
    (after (.rsgen 0#8) .reset).pr = [1#8] := by decide +kernel

/-- 42_rs.md R103, R104: a leading zero byte stays. -/
theorem test_dbpush : (after (.dbpush 0#8) .reset).db = [0#8] ∧
    (after .dbrst { State.reset with db := [0#8, 1#8] }).db = [] := by decide

/-- 42_rs.md R105. -/
theorem test_rsenc : (after (.rsenc 10#8) { State.reset with
      db := [32#8, 91#8, 11#8, 120#8, 209#8, 114#8, 220#8, 77#8, 67#8, 64#8, 236#8, 17#8, 236#8, 17#8, 236#8, 17#8] }).ecb =
    [196#8, 35#8, 39#8, 119#8, 235#8, 215#8, 231#8, 226#8, 93#8, 23#8] := by decide +kernel

/-- 42_rs.md R105: the zero that `Strip` removed is restored at the front. -/
theorem test_rsenc_restores_zeros : (after (.rsenc 7#8) { State.reset with db := [1#8, 85#8] }).ecb =
    [0#8, 98#8, 131#8, 46#8, 119#8, 143#8, 99#8] := by decide +kernel

/-- 43_version_select.md R112: the length field of 16 bits begins where version 9 is full. -/
theorem test_vsel : (after (.vsel .m) { State.reset with payload := hello }).ver = 1#6 ∧
    (after (.vsel .l) { State.reset with payload := List.replicate 230 0#8 }).res = 9#32 ∧
    (after (.vsel .l) { State.reset with payload := List.replicate 231 0#8 }).res = 10#32 := by decide +kernel

/-- 43_version_select.md R113. -/
theorem test_setvl : (after (.setvl .q 8#8) (staged .final .dark)).ver = 8#6 ∧
    (after (.setvl .q 8#8) (staged .final .dark)).n = 0#8 ∧ (after (.setvl .m 41#8) .reset).err = .failed .illegalCommand := by decide

/-- 44_bitbuf.md R123. -/
theorem test_bbput : (after (.bbput 8#8 11#16) { State.reset with bb := [false, true, false, false] }).bb =
      [false, true, false, false, false, false, false, false, true, false, true, true] ∧
    (after (.bbput 4#8 0xFFF4#16) .reset).bb = [false, true, false, false] := by decide

/-- 44_bitbuf.md R124. -/
theorem test_bbenc : (after .bbenc { version1 with payload := hello }).bb = bitsOf helloData := by decide +kernel

/-- 44_bitbuf.md R124: fourteen bytes fill version 1 level M, fifteen overflow it; 10_state.md R33, 44_bitbuf.md R122. -/
theorem test_bbenc_limits : (after .bbenc { version1 with payload := List.replicate 14 1#8 }).err = .ok ∧
    (after .bbenc { version1 with payload := List.replicate 15 1#8 }).err = .failed .overflow ∧
    (after .bbenc .reset).err = .failed .illegalCommand ∧ (after .bbrst { State.reset with bb := [true] }).bb = [] := by decide +kernel

/-- 45_block_split.md R138. -/
theorem test_split : (after .split { version1 with bb := bitsOf helloData }).cw = helloData ++ helloParity ∧
    (after .split { version1 with bb := [true] }).err = .failed .illegalCommand := by decide +kernel

/-- 45_block_split.md R137: the shorter block drops out of the last turn, the EC blocks come after the data blocks. -/
theorem test_round_robin : assembleRoundRobin [[1#8, 2#8], [3#8, 4#8, 5#8]] [[6#8], [7#8]] =
    [1#8, 3#8, 2#8, 4#8, 5#8, 6#8, 7#8] := by decide

/-- 46_matrix.md R146. -/
theorem test_mxrst : (after .mxrst version1).n = 21#8 ∧ unsetCount (after .mxrst version1).mx = 441 ∧
    (after .mxrst .reset).err = .failed .illegalCommand := by decide +kernel

/-- 46_matrix.md R151: 239 cells are left, and the timing cells alternate. -/
theorem test_mxpat : unsetCount (after .mxpat (staged .empty .unset)).mx = 239 ∧
    (List.range' 8 5).map (getCell (after .mxpat (staged .empty .unset)).mx 6) = [.dark, .light, .dark, .light, .dark] := by
  decide +kernel

/-- 46_matrix.md R156: on cells all unset, the 31 metadata cells of version 1 become light. -/
theorem test_mxrsv : unsetCount (after .mxrsv (staged .patterns .unset)).mx = 410 ∧
    getCell (after .mxrsv (staged .patterns .unset)).mx 13 8 = .light := by decide +kernel

/-- 46_matrix.md R159: the first eight cells of the worked example. -/
theorem test_mxmap : [(20, 20), (20, 19), (19, 20), (19, 19), (18, 20), (18, 19), (17, 20), (17, 19)].map (fun rc =>
      getCell (after (.mxmap 0#8) { staged .reserved .unset with cw := helloData ++ helloParity }).mx rc.1 rc.2) =
    [Cell.dark, .dark, .light, .dark, .dark, .light, .light, .dark] := by decide +kernel

/-- 46_matrix.md R161. -/
theorem test_mxfin : [(0, 8), (8, 20), (2, 8), (8, 18), (13, 8)].map (fun rc =>
      getCell (after .mxfin { staged .mapped .light with mask := 3#3 }).mx rc.1 rc.2) =
    [Cell.dark, .dark, .light, .light, .dark] := by decide +kernel

/-- 46_matrix.md R162. -/
theorem test_maskq : (after (.maskq 0#8 2#8 4#8) .reset).res = 1#32 ∧ (after (.maskq 5#8 3#8 4#8) .reset).res = 1#32 ∧
    (after (.maskq 7#8 1#8 1#8) .reset).res = 0#32 := by decide

/-- 47_mask_eval.md R181: an all-dark 21x21 grid scores 798 + 1200 + 0 + 100. -/
theorem test_mxpen : (after .mxpen (staged .mapped .dark)).res = 2098#32 := by decide +kernel

/-- 47_mask_eval.md R176, R178: a run of six, and two overlapping mimics. -/
theorem test_penalty_lines : runScore [true, true, true, true, true, true, false] = 4 ∧
    patCount [true, false, true, true, true, false, true, false, true, true, true, false, true] = 2 := by decide

/-- 47_mask_eval.md R184: the eight trial scores of the worked example, and its winner. -/
theorem test_mxbest_choice : pickBest (0#3, 1223) [(1#3, 1259), (2#3, 1242), (3#3, 1114), (4#3, 1223), (5#3, 1175), (6#3, 1268),
    (7#3, 1152)] = (3#3, 1114) := by decide

/-- 47_mask_eval.md R182: the trial score of mask 3 of the worked example. -/
theorem test_mxbest_trial : trialScore 21 1 [] (helloData ++ helloParity) 3#3 = 1114 := by decide +kernel

/-- 48_bch.md R190, R192. -/
theorem test_bchfmt : (after (.bchfmt 3#8) .reset).res = 0x5B4B#32 ∧ (after (.bchfmt 8#8) .reset).res = 0x77C4#32 := by decide +kernel

/-- 48_bch.md R191, R193. -/
theorem test_bchver : (after (.bchver 7#8) .reset).res = 0x7C94#32 ∧ (after (.bchver 63#8) .reset).res = 0x3FB85#32 := by
  decide +kernel

/-- 49_generate.md R203: version and codewords of the worked example, whatever version stood before. -/
theorem test_gen : (after (.gen .m) { State.reset with payload := hello, ver := 40#6 }).ver = 1#6 ∧
    (after (.gen .m) { State.reset with payload := hello, ver := 40#6 }).cw = helloData ++ helloParity := by decide +kernel

/-- 49_generate.md R204. -/
theorem test_isdark : (after (.isdark 20#8 0#8) (staged .final .dark)).res = 1#32 ∧
    (after (.isdark 21#8 0#8) (staged .final .dark)).err = .failed .malformedMatrixAccess ∧
    (after (.isdark 200#8 200#8) .reset).err = .failed .illegalCommand := by decide +kernel

/-- 49_generate.md R200, R201, R202, R205. -/
theorem test_plain_commands : (after .modcnt (staged .empty .unset)).res = 21#32 ∧
    (after (.plpush 0x48#8) .reset).payload = [0x48#8] ∧ (after .plrst { State.reset with payload := hello }).payload = [] ∧
    (after .nop { State.reset with err := .failed .overflow }).err = .ok := by decide +kernel

/-- 70_reset_and_hazards.md R240, 60_exceptions.md R214: a stuck core discards a word and leaves the fault by reset alone. -/
theorem test_step_reset : step { State.reset with fault := true, err := .failed .glogZero, port := [.command 0#32] } =
      .next { State.reset with fault := true, err := .failed .glogZero } ∧
    step { State.reset with fault := true, err := .failed .glogZero, port := [.reset] } = .next State.reset := ⟨rfl, rfl⟩

/-! ## Witnesses: states and operands that meet the hypotheses of the statements, clause by clause at its boundaries -/

/-- The finished version-1 symbol of an empty `CW` under mask 0, a `MODCNT` presented next. -/
def finished : State :=
  { version1 with n := 21#8, stage := .final, mx := buildFinal 21 1#6 [] [] .m 0#3, port := [.command 0xA2000000#32] }

/-- A state that has reported the fatal error. -/
def stuck : State := { version1 with err := .failed .glogZero, fault := true }

theorem finished_mx : finished.mx = buildFinal 21 1#6 [] [] .m 0#3 := by simp only [finished]

theorem finished_n : finished.n.toNat = 21 := by decide

/-- With empty buffers a state has only its scalar registers to answer for. -/
theorem registers_of_empty {s : State} (hver : s.ver.toNat ≤ 40) (herr : s.err ≠ .failed .invalidLookup)
    (hfault : s.fault = (statusCode s.err).getLsbD 7) (hp : s.payload = []) (hpa : s.pa = []) (hpb : s.pb = [])
    (hpr : s.pr = []) (hdb : s.db = []) (hecb : s.ecb = []) (hbb : s.bb = []) (hcw : s.cw = []) : RegistersOk s := by
  constructor <;> simp_all [Canonical]

theorem test_core_finished : CoreOk finished := by
  refine ⟨registers_of_empty (by decide) (by decide) (by decide) rfl rfl rfl rfl rfl rfl rfl rfl, ?_, ?_, ?_⟩
  · rw [finished_mx, finished_n]
    exact buildFinal_square 21 1#6 [] [] .m 0#3
  · exact fun h => absurd h (by decide)
  · exact fun _ => by decide

theorem test_cells_finished : CellsOk finished := by
  refine ⟨test_core_finished, fun h => absurd h (by decide), fun h => absurd h (by decide), fun _ => ?_⟩
  rw [finished_mx, finished_n]
  decide +kernel

theorem test_finders_finished : FindersOk finished := by
  refine ⟨test_core_finished, fun _ _ => ?_⟩
  rw [finished_mx, finished_n]
  unfold FinderAt
  refine ⟨?_, ?_, ?_⟩ <;> decide +kernel

theorem test_metadata_finished : MetadataOk finished := by
  refine ⟨test_core_finished, fun _ => ?_, fun _ => ?_, fun _ h => absurd h (by decide)⟩
  · rw [finished_mx, finished_n]
    decide +kernel
  · rw [finished_mx, finished_n]
    decide +kernel

/-- The grid after reservation, every cell of it light but one data cell. -/
def nearlyReserved : State :=
  { staged .reserved .light with mx := setCell (plainGrid 21 .light) 20 20 .unset }

theorem plainGrid_square (n : Nat) (c : Cell) : Square n (plainGrid n c) := by
  refine ⟨by simp [plainGrid], fun cells h => ?_⟩
  rw [plainGrid, List.mem_replicate] at h
  simp [h.2]

theorem core_staged {st : Stage} (h : st ≠ .none) (c : Cell) : CoreOk (staged st c) :=
  ⟨registers_of_empty (show (1#6).toNat ≤ 40 by decide) (fun h => nomatch h)
      (show false = (statusCode .ok).getLsbD 7 by decide) rfl rfl rfl rfl rfl rfl rfl rfl,
    plainGrid_square 21 c, fun h' => absurd h' h, fun _ => ⟨show 1#6 ≠ 0#6 by decide, rfl⟩⟩

theorem core_reset : CoreOk State.reset :=
  ⟨registers_of_empty (by decide) (by decide) rfl rfl rfl rfl rfl rfl rfl rfl rfl, ⟨rfl, by decide⟩, fun _ => rfl,
    fun h => absurd rfl h⟩

/-- A payload of the given length. -/
def payloadOf (k : Nat) : State := { State.reset with payload := List.replicate k 0#8 }

theorem payloadOf_length (k : Nat) : (payloadOf k).payload.length = k := List.length_replicate

/-- No version holds more than the capacity of version 40. -/
theorem tooLong_payloadOf {k cap : Nat} {lvl : Level} (hcap : capacity 40 lvl = .ok cap) (h : cap < k) :
    TooLong lvl (payloadOf k) := ⟨cap, hcap, by rw [payloadOf_length]; exact h⟩

theorem not_tooLong_payloadOf {k cap : Nat} {lvl : Level} (hcap : capacity 40 lvl = .ok cap) (h : k ≤ cap) :
    ¬ TooLong lvl (payloadOf k) := by
  rintro ⟨cap', hcap', h'⟩
  rw [hcap] at hcap'
  cases hcap'
  rw [payloadOf_length] at h'
  omega

theorem witness_ResetLeavesEveryRegisterZeroAndEveryBufferEmpty :
    ({ stuck with port := [.reset] } : State).port = .reset :: [] := rfl

theorem witness_StepRunsTheDecodedCommand : Accepting finished ∧ finished.port = .command 0xA2000000#32 :: [] ∧
    decode 0xA2000000#32 = .ok .modcnt ∧ decode (BitVec.ofNat 32 0xA2000000) = .ok .modcnt := by decide

theorem witness_StepHoldsDiscardsOrReportsIllegalWords :
    State.reset.port = [] ∧ ({ stuck with port := [.command 0#32] } : State).port = .command 0#32 :: [] ∧ stuck.fault = true ∧
    Accepting finished ∧ decode 0x01000000#32 = .error .undefinedOp := by decide

/-- The first word has the `op` and decodes; the second has the same `op` and does not. -/
def straddles (w : Byte × Word × Word) : Bool :=
  (fieldsOf w.2.1).op == w.1 && (decode w.2.1).isOk && (fieldsOf w.2.2).op == w.1 && !(decode w.2.2).isOk

/-- For every row of units 0 to 5 a word its command has, and one of the same `op` just outside what it admits. -/
def straddlingWordsLow : List (Byte × Word × Word) :=
  [(0x00#8, 0x00000000#32, 0x00000001#32), (0x10#8, 0x1000FFFF#32, 0x10010000#32), (0x11#8, 0x110000FF#32, 0x11000100#32),
   (0x20#8, 0x20020000#32, 0x20030000#32), (0x21#8, 0x210200FF#32, 0x21030000#32), (0x22#8, 0x22000000#32, 0x22000001#32),
   (0x23#8, 0x23000000#32, 0x23010000#32), (0x30#8, 0x300000FF#32, 0x30010000#32), (0x31#8, 0x31000000#32, 0x31000001#32),
   (0x32#8, 0x320000FF#32, 0x32000100#32), (0x33#8, 0x330000FF#32, 0x33010000#32), (0x40#8, 0x40030000#32, 0x40040000#32),
   (0x41#8, 0x41030028#32, 0x41030029#32), (0x41#8, 0x41000001#32, 0x41000000#32), (0x50#8, 0x50000000#32, 0x50000001#32),
   (0x51#8, 0x5110FFFF#32, 0x51110000#32), (0x52#8, 0x52000000#32, 0x52000100#32)]

/-- The same for units 6 to A. -/
def straddlingWordsHigh : List (Byte × Word × Word) :=
  [(0x60#8, 0x60000000#32, 0x60000001#32), (0x70#8, 0x70000000#32, 0x70010000#32), (0x71#8, 0x71000000#32, 0x71000001#32),
   (0x72#8, 0x72000000#32, 0x72000001#32), (0x73#8, 0x73000007#32, 0x73000008#32), (0x74#8, 0x74000000#32, 0x74000001#32),
   (0x75#8, 0x7507FFFF#32, 0x75080000#32), (0x80#8, 0x80000000#32, 0x80000001#32), (0x81#8, 0x81000000#32, 0x81000001#32),
   (0x90#8, 0x9000001F#32, 0x90000020#32), (0x91#8, 0x9100003F#32, 0x91000040#32), (0xA0#8, 0xA0030000#32, 0xA0040000#32),
   (0xA1#8, 0xA100FFFF#32, 0xA1010000#32), (0xA2#8, 0xA2000000#32, 0xA2000001#32), (0xA3#8, 0xA3000000#32, 0xA3000100#32),
   (0xA4#8, 0xA40000FF#32, 0xA4000100#32)]

theorem witness_CommandMapOfThirtyTwoRows : straddlingWordsLow.all straddles = true ∧ straddlingWordsHigh.all straddles = true ∧
    encodingTable.all (fun row => row.op != (fieldsOf 0xA5000000#32).op) = true := by
  refine ⟨?_, ?_, ?_⟩ <;> decide +kernel

theorem witness_EncodeThenDecodeIsIdentity : Instr.wellFormed (.maskq 7#8 255#8 0#8) = true ∧
    Instr.wellFormed (.setvl .q 40#8) = true := by decide

theorem witness_EveryWordIsOneCommandOrIllegal : (⟨0x51#8, "BBPUT", .ai⟩ : EncodingRow) ∈ encodingTable ∧
    0x51040004#32 &&& Format.ai.mask = (⟨0x51#8, "BBPUT", .ai⟩ : EncodingRow).matchWord := by decide +kernel

theorem witness_RecoverableErrorWritesErrAlone :
    (∃ t, acceptWord exec 0x41000000#32 .reset = .next t ∧ t.err = .failed .illegalCommand) ∧
    (∃ t, acceptWord exec 0x00000000#32 .reset = .next t ∧ ∀ e, t.err ≠ .failed e) :=
  ⟨⟨_, rfl, rfl⟩, ⟨_, rfl, fun _ h => nomatch h⟩⟩

theorem witness_FatalErrorStopsTheCoreUntilReset :
    (∃ t, acceptWord exec 0x11000000#32 .reset = .next t ∧ t.err = .failed .glogZero) ∧ isFatal .glogZero = true ∧
    stuck.fault = true ∧ (∃ t, step { stuck with port := [.command 0#32] } = .next t) ∧
    (∃ t, step { stuck with port := [.reset] } = .next t) :=
  ⟨⟨_, rfl, rfl⟩, rfl, rfl, ⟨_, rfl⟩, ⟨_, rfl⟩⟩

/-- A payload one byte over the capacity of version 40 level M meets the register and shape invariants. -/
theorem core_payloadOf : CoreOk (payloadOf 2332) := by
  have h : CoreOk State.reset := core_reset
  exact ⟨{ h.registers with payloadLen := by rw [payloadOf_length]; decide }, h.shape.square, h.shape.noMatrix, h.shape.side⟩

/-- The states of the clauses: over-long payloads, a payload that does not fit, a query outside, and the three `GlogZero` cases. -/
theorem witness_ErrorsComeFromTheirCommandsAndConditions :
    (CoreOk State.reset ∧ exec .mxpat .reset = turnedAway .illegalCommand .reset) ∧
    (CoreOk (payloadOf 2332) ∧ TooLong .m (payloadOf 2332)) ∧
    (DoesNotFit { version1 with payload := List.replicate 15 0#8 } ∧ version1.ver ≠ 0#6) ∧
    (CoreOk (staged .final .dark) ∧ (staged .final .dark).n.toNat ≤ (21#8).toNat) ∧
    ProductFaults { State.reset with pa := [1#8, 0#8], pb := [1#8] } ∧ RemainderFaults .reset ∧
    RemainderFaults { State.reset with pa := [1#8, 1#8], pb := [1#8, 0#8] } ∧
    ParityFaults 255#8 { State.reset with db := [0#8, 1#8] } := by
  refine ⟨⟨core_reset, rfl⟩, ⟨core_payloadOf, tooLong_payloadOf (cap := 2331) (by decide +kernel) (by decide)⟩,
    ⟨⟨16, by decide, by decide⟩, by decide⟩, ⟨core_staged (by decide) _, by decide⟩, ?_, Or.inl rfl, Or.inr (by decide), ?_⟩
  · unfold ProductFaults
    decide
  · unfold ParityFaults
    decide

theorem witness_CapacityThresholdsOfVselAndGen : Accepting (payloadOf 2953) ∧ Accepting (payloadOf 2954) ∧
    (Level.l, 2953) ∈ [(Level.l, 2953), (Level.m, 2331), (Level.q, 1663), (Level.h, 1273)] ∧
    (payloadOf 2953).payload.length ≤ 2953 ∧ 2953 < (payloadOf 2954).payload.length := by
  rw [payloadOf_length, payloadOf_length]
  exact ⟨rfl, rfl, by decide, by decide, by decide⟩

theorem witness_OverflowAndBadQueriesDisturbNothing :
    (VersionSelected { version1 with payload := List.replicate 15 0#8 } ∧
      DoesNotFit { version1 with payload := List.replicate 15 0#8 }) ∧
    (∃ t, exec (.gen .m) (payloadOf 2332) = .next t) ∧
    ((staged .final .dark).stage = .final ∧ (staged .final .dark).n.toNat ≤ (21#8).toNat ∧
      (20#8).toNat < (staged .final .dark).n.toNat) :=
  ⟨⟨by decide, 16, by decide, by decide⟩, exec_answers _ _, by decide⟩

theorem witness_RecoverableErrorsRepeatUntilTheStateChanges :
    ∃ t, exec .mxpat .reset = .next t ∧ t.err = .failed .illegalCommand ∧ isFatal .illegalCommand = false := ⟨_, rfl, rfl, rfl⟩

theorem witness_BadOperandsStagesAndMissingVersionsAreTurnedAway : Accepting State.reset ∧ State.reset.stage ≠ .empty ∧
    State.reset.stage ≠ .patterns ∧ State.reset.stage ≠ .reserved ∧ State.reset.stage ≠ .mapped ∧ State.reset.stage ≠ .final ∧
    State.reset.ver = 0#6 ∧ 40 < (41#8).toNat ∧ 16 < (17#8).toNat ∧ 7 < (8#8).toNat ∧ 31 < (32#8).toNat ∧ 63 < (64#8).toNat := by
  decide

/-- For every clause a command that changes the register. -/
theorem witness_OnlyItsWritersChangeARegister :
    (after (.setvl .q 8#8) .reset).ver ≠ State.reset.ver ∧ (after (.setvl .q 8#8) .reset).ecl ≠ State.reset.ecl ∧
    (after (.mxmap 7#8) (staged .reserved .light)).mask ≠ State.reset.mask ∧ (after .mxrst version1).n ≠ version1.n ∧
    (after (.gexp 8#16) .reset).res ≠ State.reset.res ∧ (after (.plpush 1#8) .reset).payload ≠ State.reset.payload ∧
    (after (.ppush .pa 1#8) .reset).pa ≠ State.reset.pa ∧ (after (.ppush .pb 1#8) .reset).pb ≠ State.reset.pb ∧
    (after (.rsgen 0#8) .reset).pr ≠ State.reset.pr ∧ (after (.dbpush 1#8) .reset).db ≠ State.reset.db ∧
    (after (.rsenc 1#8) .reset).ecb ≠ State.reset.ecb ∧ (after (.bbput 1#8 1#16) .reset).bb ≠ State.reset.bb ∧
    (after .split { version1 with bb := bitsOf helloData }).cw ≠ version1.cw ∧ (after .mxrst version1).mx ≠ version1.mx ∧
    (after .mxrst version1).stage ≠ version1.stage := by decide +kernel

theorem witness_ExponentReductionIsTheFlooredRemainder : (255#8 : Byte) ≠ 0#8 := by decide

theorem witness_GexpWritesTheExponentOfItsSignedOperand : Accepting State.reset ∧ (fieldsOf 0x10008000#32).op = 0x10#8 ∧
    (fieldsOf 0x10008000#32).a = 0#8 ∧ (fieldsOf 0x10010000#32).a ≠ 0#8 := by decide

theorem witness_GlogWritesTheLogarithmOrStopsTheCore : Accepting State.reset ∧ (1#8 : Byte) ≠ 0#8 ∧
    (fieldsOf 0x11000000#32).op = 0x11#8 ∧ (fieldsOf 0x11000100#32).b ≠ 0#8 := by decide

theorem witness_NopModcntAndClearsAlwaysComplete : Accepting (staged .final .dark) ∧
    (0xA2#8, Instr.modcnt) ∈ [(0x00#8, Instr.nop), (0xA3#8, Instr.plrst), (0x31#8, Instr.dbrst), (0x50#8, Instr.bbrst),
      (0xA2#8, Instr.modcnt)] := by decide

theorem witness_PclrEmptiesAndPpushAppendsAndStrips : Accepting State.reset ∧
    (readPoly .pa { State.reset with pa := List.replicate 65534 1#8 }).length < 65535 ∧
    (readPoly .pa { State.reset with pa := List.replicate 65535 1#8 }).length = 65535 ∧
    readPoly .pr .reset = [] ∧ Canonical (readPoly .pb { State.reset with pb := [1#8] }) ∧
    readPoly .pb { State.reset with pb := [1#8] } ≠ [] := by
  refine ⟨rfl, ?_, List.length_replicate, rfl, by simp [readPoly, Canonical], by simp [readPoly]⟩
  change (List.replicate 65534 1#8).length < 65535
  rw [List.length_replicate]
  decide

theorem witness_BytePushesAppendAtTheEnd :
    ({ State.reset with db := List.replicate 65534 0#8 } : State).db.length < 65535 ∧
    ({ State.reset with db := List.replicate 65535 0#8 } : State).db.length = 65535 ∧
    ({ State.reset with payload := List.replicate 65534 0#8 } : State).payload.length < 65535 ∧
    ({ State.reset with payload := List.replicate 65535 0#8 } : State).payload.length = 65535 := by
  simp only [List.length_replicate]
  decide

theorem witness_BbputAppendsMostSignificantBitFirst : Accepting State.reset ∧ (16#8).toNat ≤ 16 ∧
    ({ State.reset with bb := List.replicate 65519 true } : State).bb.length + (16#8).toNat ≤ 65535 ∧
    65535 < ({ State.reset with bb := List.replicate 65520 true } : State).bb.length + (16#8).toNat := by
  simp only [List.length_replicate]
  decide

theorem witness_PmulWritesTheProductOfPaAndPb : State.reset.pa = [] ∧
    (NoZero [1#8, 2#8] ∧ [1#8, 2#8].length + [3#8].length - 1 ≤ 65535) ∧
    65535 < (List.replicate 65535 1#8).length + [1#8, 1#8].length - 1 := by
  refine ⟨rfl, ⟨by unfold NoZero; decide, by decide⟩, by rw [List.length_replicate]; decide⟩

theorem witness_PmodWritesTheRemainderOfPaByPb : Canonical [18#8, 0#8, 86#8] ∧ [1#8, 3#8, 2#8] ≠ [] ∧ NoZero [1#8, 3#8, 2#8] ∧
    [1#8, 3#8, 2#8].length ≤ [18#8, 0#8, 86#8].length ∧ [5#8].length < [1#8, 0#8].length := by
  refine ⟨by simp [Canonical], by decide, by unfold NoZero; decide, by decide, by decide⟩

theorem witness_RsgenWritesTheGeneratorForEveryCount : Accepting State.reset ∧ 0 < 255 ∧ 254 < 255 ∧ 255 < 254 + 2 ∧
    (fieldsOf 0x300000FF#32).op = 0x30#8 ∧ (fieldsOf 0x30000100#32).b ≠ 0#8 := by decide

theorem witness_RsencWritesExactlyEcParityBytes :
    (¬ ParityFaults 254#8 { State.reset with db := [1#8] } ∧ [1#8].length + (254#8).toNat ≤ 65535) ∧
    ¬ ParityFaults 255#8 { State.reset with db := [0#8] } ∧ ParityFaults 255#8 { State.reset with db := [1#8] } ∧
    65535 < (List.replicate 65535 0#8).length + (1#8).toNat := by
  refine ⟨⟨?_, by decide⟩, ?_, ?_, by rw [List.length_replicate]; decide⟩ <;> unfold ParityFaults <;> decide

theorem witness_DataWithParityIsAMultipleOfTheGenerator : 254 ≤ 254 := Nat.le_refl _

theorem witness_VselPicksTheSmallestVersionSetvlTheGivenOne : ¬ TooLong .h (payloadOf 1273) ∧ TooLong .h (payloadOf 1274) ∧
    1 ≤ (1#8).toNat ∧ (40#8).toNat ≤ 40 :=
  ⟨not_tooLong_payloadOf (cap := 1273) (by decide +kernel) (by decide),
    tooLong_payloadOf (cap := 1273) (by decide +kernel) (by decide), by decide, by decide⟩

theorem witness_BlockTableTotalsAndCapacities : (1 ≤ 1 ∧ 1 ≤ 40) ∧ (1 ≤ 40 ∧ 40 ≤ 40) ∧ 39 < 40 := by decide

theorem witness_BbencLaysOutTheEncodedPayload : VersionSelected { version1 with payload := List.replicate 14 0#8 } ∧
    ¬ DoesNotFit { version1 with payload := List.replicate 14 0#8 } := by
  refine ⟨by decide, ?_⟩
  rintro ⟨d, hd, h⟩
  have hd16 : dataCw 1 .m = .ok 16 := by decide
  change dataCw 1 .m = .ok d at hd
  rw [hd16] at hd
  cases hd
  exact absurd h (by decide)

theorem witness_CodewordBitsRunMostSignificantFirst : (bitsOf [0xEC#8]).length % 8 = 0 ∧ 0 < (bitsOf [0xEC#8]).length / 8 := by decide

theorem witness_SplitEncodesEveryBlockAndAssembles : VersionSelected { version1 with bb := bitsOf helloData } ∧
    dataCw 1 .m = .ok 16 ∧ ({ version1 with bb := bitsOf helloData } : State).bb.length = 8 * 16 ∧
    version1.bb.length ≠ 8 * 16 ∧ version1.cfg.interleave = .sequential := by decide +kernel

theorem witness_MxrstStartsAnUnsetMatrixOfTheVersionsSide : VersionSelected version1 ∧
    VersionSelected { version1 with ver := 40#6 } ∧ State.reset.ver = 0#6 := by decide

theorem witness_MxpatDrawsFindersAndTiming : Accepting (staged .empty .unset) ∧ CoreOk (staged .empty .unset) ∧
    CellsOk (staged .empty .unset) ∧ (∀ row < 21, ∀ col < 21, getCell (staged .empty .unset).mx row col = .unset) ∧
    8 ≤ 8 ∧ 12 + 9 ≤ (staged .empty .unset).n.toNat := by
  have core : CoreOk (staged .empty .unset) := core_staged (by decide) _
  have cells : ∀ row < 21, ∀ col < 21, getCell (staged .empty .unset).mx row col = .unset := by decide +kernel
  exact ⟨rfl, core, ⟨core, fun _ => cells, fun h => absurd h (by decide), fun h => absurd h (by decide)⟩, cells, by decide,
    by decide⟩

/-- Version 2 has the anchor (18, 18), off the finders; the cell (9, 9) lies in no pattern. -/
theorem witness_MxpatDrawsAlignmentPatternsAndLeavesTheRestUnset : CoreOk (staged .empty .unset) ∧
    alignPositions 2 = .ok [6, 18] ∧ (18, 18) ≠ (6, 6) ∧ (18, 18) ≠ (6, 25 - 7) ∧ (18, 18) ≠ (25 - 7, 6) ∧
    ¬ ((9 < 8 ∨ 25 ≤ 9 + 8) ∧ 9 < 8) ∧ ¬ (9 < 8 ∧ 25 ≤ 9 + 8) :=
  ⟨core_staged (by decide) _, by decide, by decide, by decide, by decide, by decide, by decide⟩

theorem witness_MxrsvPutsLightPlaceholdersOnMetadataCells : CoreOk (staged .patterns .dark) ∧ IsMetadata 21 1 13 8 ∧
    ¬ IsMetadata 21 1 20 20 := by
  refine ⟨core_staged (by decide) _, Or.inr (Or.inl rfl), ?_⟩
  unfold IsMetadata
  decide

theorem witness_MxmapWritesOnlyUnsetCellsAndLeavesNone : CellsOk nearlyReserved ∧ (7#8).toNat ≤ 7 ∧
    getCell nearlyReserved.mx 0 0 ≠ .unset ∧ getCell nearlyReserved.mx 20 20 = .unset := by
  refine ⟨⟨⟨registers_of_empty (by decide) (by decide) rfl rfl rfl rfl rfl rfl rfl rfl rfl,
    ⟨setCell_square (plainGrid_square 21 .light) 20 20 .unset, fun h => absurd h (by decide), fun _ => ⟨by decide, by decide⟩⟩⟩,
    fun h => absurd h (by decide), fun _ => by decide +kernel, fun h => absurd h (by decide)⟩, by decide, by decide +kernel, by decide +kernel⟩

theorem witness_DataMappingIsTheLoopOfItsRule : Square 21 (plainGrid 21 .unset) ∧ 21 % 2 = 1 ∧ 1 ≤ 21 :=
  ⟨plainGrid_square 21 _, rfl, by decide⟩

theorem witness_ScanVisitsEveryCellOffColumnSixOnce : 9 % 2 = 1 ∧ 9 ≤ 9 ∧ 177 % 2 = 1 := by decide

theorem witness_MxfinWritesTheMetadataBits : Accepting (staged .mapped .light) ∧ CoreOk (staged .mapped .light) ∧
    ¬ IsMetadata 21 1 20 20 := by
  refine ⟨rfl, core_staged (by decide) _, ?_⟩
  unfold IsMetadata
  decide

theorem witness_MaskqAnswersThePredicate : Accepting State.reset ∧ (7#8).toNat ≤ 7 ∧ (fieldsOf 0x7507FFFF#32).op = 0x75#8 ∧
    7 < (fieldsOf 0x75080000#32).a.toNat := by decide

theorem witness_BchCommandsWriteTheirCodeWords : Accepting State.reset ∧ (31#8).toNat ≤ 31 ∧ (63#8).toNat ≤ 63 := by decide

theorem witness_BchWordsCarryTheirDataAndDiffer : (3#5 : BitVec 5) ≠ 4#5 ∧ (7#6 : BitVec 6) ≠ 8#6 := by decide

theorem witness_RunScoreCountsEveryMaximalRunOnce : 1 ≤ 5 ∧ [false, true].head? ≠ some true := by decide

theorem witness_BlocksAndMimicsAreCountedAtEveryPosition : [[true, false], [true, true]].length = 2 ∧
    ∀ cells ∈ [[true, false], [true, true]], cells.length = 2 := by decide

theorem witness_BalanceScoreIsTheExactRationalFloor : 1 ≤ 21 := by decide

theorem witness_MxpenReportsTheSumOfTheFourRules : Accepting (staged .mapped .dark) ∧ CoreOk (staged .mapped .dark) ∧
    Accepting finished ∧ CoreOk finished ∧ finished.stage = .final :=
  ⟨rfl, core_staged (by decide) _, rfl, test_core_finished, rfl⟩

theorem witness_MxbestPicksTheLowestScoreAndSmallestIndex : Accepting version1 ∧ VersionSelected version1 ∧
    (1#3).toNat < (3#3).toNat := by decide

theorem witness_MxbestEqualsTheFiveMatrixCommands : Accepting version1 ∧ VersionSelected { version1 with ver := 40#6 } := by decide

theorem witness_GenEqualsTheFourCommandSequence : ¬ TooLong .q (payloadOf 1663) ∧ TooLong .q (payloadOf 1664) ∧
    Accepting (payloadOf 1663) :=
  ⟨not_tooLong_payloadOf (cap := 1663) (by decide +kernel) (by decide),
    tooLong_payloadOf (cap := 1663) (by decide +kernel) (by decide), rfl⟩

theorem witness_GenReadsThePayloadAndTheParameterAlone : Accepting State.reset ∧ Accepting { staged .final .dark with res := 7#32 } ∧
    State.reset.payload = ({ staged .final .dark with res := 7#32 } : State).payload ∧
    State.reset.cfg = ({ staged .final .dark with res := 7#32 } : State).cfg ∧ ¬ TooLong .l .reset :=
  ⟨rfl, rfl, rfl, rfl, fun ⟨_, _, h⟩ => absurd h (Nat.not_lt_zero _)⟩

theorem witness_IsdarkReadsOneCellOfTheFinishedSymbol : Accepting finished ∧ finished.stage = .final ∧
    (20#8).toNat < finished.n.toNat ∧ FindersOk finished ∧ MetadataOk finished :=
  ⟨rfl, rfl, by decide, test_finders_finished, test_metadata_finished⟩

/-- A command that lowers the stage, one that succeeds in each stage, and one that leaves a finished symbol. -/
theorem witness_StageMovesOneWayUntilRestarted :
    (stageCode (after .mxrst (staged .final .dark)).stage).toNat < (stageCode (staged .final .dark).stage).toNat ∧
    (after .mxpat (staged .empty .unset)).err = .ok ∧ (after .mxrsv (staged .patterns .dark)).err = .ok ∧
    (after (.mxmap 7#8) (staged .reserved .dark)).err = .ok ∧ (after .mxfin (staged .mapped .dark)).err = .ok ∧
    (staged .final .dark).stage = .final ∧ (∃ t, exec .modcnt (staged .final .dark) = .next t) := by
  refine ⟨by decide, by decide +kernel, by decide +kernel, by decide +kernel, by decide +kernel, rfl, ⟨_, rfl⟩⟩

theorem witness_StepKeepsRegistersAndShape : CoreOk finished ∧ ∃ t, step finished = .next t := ⟨test_core_finished, ⟨_, rfl⟩⟩

theorem witness_StepKeepsAssignedCells : CellsOk finished ∧ ∃ t, step finished = .next t := ⟨test_cells_finished, ⟨_, rfl⟩⟩

theorem witness_StepKeepsTheFinders : FindersOk finished ∧ finished.stage = .final ∧ ∃ t, step finished = .next t :=
  ⟨test_finders_finished, rfl, ⟨_, rfl⟩⟩

theorem witness_StepKeepsTheMetadataOfAFinishedSymbol : MetadataOk finished ∧ finished.stage = .final ∧ ∃ t, step finished = .next t :=
  ⟨test_metadata_finished, rfl, ⟨_, rfl⟩⟩

end Sys2Proof.Tests
end

/-! SUPPORT. The appends of the buffers, bit for bit, and the command `BBPUT` (20_memory.md R42). -/

namespace Sys2Proof.Machine

/-- A recoverable error writes `ERR` alone (60_exceptions.md R212). -/
theorem raise_of_recoverable {e : ErrorCode} (h : isFatal e = false) (s : State) :
    raise e s = { s with err := .failed e } := by simp [raise, h]

/-! ## Appending to a buffer -/

/-- There is room: the buffer is extended at its end. -/
theorem appendTo_of_room {α : Type} {buf extra : List α} (h : buf.length + extra.length ≤ 65535) :
    appendTo buf extra = .ok (buf ++ extra) := appendTo_eq_ok.2 ⟨h, rfl⟩

/-- There is no room: the append is refused (60_exceptions.md R213 item 5). -/
theorem appendTo_of_no_room {α : Type} {buf extra : List α} (h : 65535 < buf.length + extra.length) :
    appendTo buf extra = .error .illegalCommand := if_pos h

/-! ## The bits a number contributes, most significant first -/

@[simp] theorem msbBits_length (num n : Nat) : (msbBits num n).length = n := by simp [msbBits]

theorem msbBits_getElem? (num : Nat) {n i : Nat} (h : i < n) : (msbBits num n)[i]? = some (num.testBit (n - 1 - i)) := by
  simp [msbBits, h]

/-! ## `BBPUT` -/

theorem bitCountOperand_of_le {n : Byte} (h : n.toNat ≤ 16) : bitCountOperand n = .ok n.toNat := if_pos h

/-- With its operand in range, `BBPUT` is one append of the `n` low bits of its value (44_bitbuf.md R123). -/
theorem exec_bbput_of_le {n : Byte} (h : n.toNat ≤ 16) (val : BitVec 16) (s : State) :
    exec (.bbput n val) s =
      command s (appendTo s.bb (msbBits val.toNat n.toNat) >>= fun bb => .ok { s with bb := bb }) := by
  simp [exec, execBbput, bitCountOperand_of_le h, unsignedImm]

theorem exec_bbput_of_room {n : Byte} {val : BitVec 16} {s : State} (hs : Accepting s) (hn : n.toNat ≤ 16)
    (hroom : s.bb.length + n.toNat ≤ 65535) :
    exec (.bbput n val) s = .next { s with bb := s.bb ++ msbBits val.toNat n.toNat, err := .ok } := by
  rw [exec_bbput_of_le hn, appendTo_of_room (by simpa using hroom), ok_bind, command_ok hs]
  rfl

theorem exec_bbput_of_no_room {n : Byte} {val : BitVec 16} {s : State} (hs : Accepting s) (hn : n.toNat ≤ 16)
    (hfull : 65535 < s.bb.length + n.toNat) : exec (.bbput n val) s = turnedAway .illegalCommand s := by
  rw [exec_bbput_of_le hn, appendTo_of_no_room (by simpa using hfull), error_bind, command_error hs,
    raise_of_recoverable rfl]

/-- Settles O24: the new buffer is the old one followed by `msbBits`, so its bits are read on either side of the old length. -/
theorem bbputAppendsMostSignificantBitFirst : Obligations.BbputAppendsMostSignificantBitFirst := by
  refine ⟨fun n val s hs hn hroom => ⟨s.bb ++ msbBits val.toNat n.toNat, exec_bbput_of_room hs hn hroom, ?_, ?_, ?_⟩,
    fun n val s hs hn hfull => exec_bbput_of_no_room hs hn hfull⟩
  · simp
  · intro i hi
    rw [List.getElem?_append_right (Nat.le_add_right _ _), Nat.add_sub_cancel_left, msbBits_getElem? _ hi]
    rfl
  · exact fun j hj => List.getElem?_append_left hj

end Sys2Proof.Machine

/-! SUPPORT. What decoding answers, said once, and the command map of 30_encoding.md R63 row by row: the formats of R61, the
unused fields of R64, the operand ranges of R66. -/

namespace Sys2Proof

/-! ## The unused fields of each format -/

@[simp] theorem unusedZero_z (f : Fields) : Format.z.unusedZero f = true ↔ f.a = 0#8 ∧ f.b = 0#8 ∧ f.c = 0#8 := by
  simp [Format.unusedZero, Format.usesA, Format.usesB, Format.usesC, and_assoc]

@[simp] theorem unusedZero_a (f : Fields) : Format.a.unusedZero f = true ↔ f.b = 0#8 ∧ f.c = 0#8 := by
  simp [Format.unusedZero, Format.usesA, Format.usesB, Format.usesC]

@[simp] theorem unusedZero_c (f : Fields) : Format.c.unusedZero f = true ↔ f.a = 0#8 ∧ f.b = 0#8 := by
  simp [Format.unusedZero, Format.usesA, Format.usesB, Format.usesC]

@[simp] theorem unusedZero_ac (f : Fields) : Format.ac.unusedZero f = true ↔ f.b = 0#8 := by
  simp [Format.unusedZero, Format.usesA, Format.usesB, Format.usesC]

@[simp] theorem unusedZero_i (f : Fields) : Format.i.unusedZero f = true ↔ f.a = 0#8 := by
  simp [Format.unusedZero, Format.usesA, Format.usesB, Format.usesC]

@[simp] theorem unusedZero_bc (f : Fields) : Format.bc.unusedZero f = true ↔ f.a = 0#8 := by
  simp [Format.unusedZero, Format.usesA, Format.usesB, Format.usesC]

@[simp] theorem unusedZero_ai (f : Fields) : Format.ai.unusedZero f = true := rfl

@[simp] theorem unusedZero_abc (f : Fields) : Format.abc.unusedZero f = true := rfl

/-! ## What decoding answers -/

theorem rowOf_eq_none {op : Byte} : rowOf op = none ↔ ∀ row ∈ encodingTable, row.op ≠ op := by simp [rowOf]

theorem decode_of_no_row {w : Word} (h : rowOf (fieldsOf w).op = none) : decode w = .error .undefinedOp := by
  simp [decode, h]

/-- A word of a row decodes exactly to the in-range command its operands name, and only if its unused fields are zero. -/
theorem decode_eq_ok_of_row {w : Word} {row : EncodingRow} (hrow : rowOf (fieldsOf w).op = some row) {i : Instr} :
    decode w = .ok i ↔
      row.format.unusedZero (fieldsOf w) = true ∧ readOperands (fieldsOf w) = some i ∧ i.wellFormed = true := by
  simp only [decode, hrow]
  cases hz : row.format.unusedZero (fieldsOf w) with
  | false => simp
  | true =>
    cases hread : readOperands (fieldsOf w) with
    | none => simp
    | some j =>
      by_cases hwf : j.wellFormed = true
      · simp only [hwf, if_true, Except.ok.injEq, true_and, Option.some.injEq]
        exact ⟨fun h => ⟨h, h ▸ hwf⟩, fun h => h.1⟩
      · simp only [hwf, if_true, Bool.false_eq_true, if_false, reduceCtorEq, Option.some.injEq, true_and, false_iff, not_and]
        rintro rfl
        exact hwf

end Sys2Proof

namespace Sys2Proof.Machine

/-! ## The named operands -/

/-- The level operand is in range exactly up to 3 (30_encoding.md R66). -/
theorem levelOfByte_eq (v : Byte) : levelOfByte v = if v.toNat ≤ 3 then some (levelOf v) else none := by
  by_cases h : v.toNat ≤ 3
  · have hv : v = 0#8 ∨ v = 1#8 ∨ v = 2#8 ∨ v = 3#8 := by bv_omega
    rcases hv with rfl | rfl | rfl | rfl <;> rfl
  · rw [if_neg h]
    unfold levelOfByte
    split
    case h_5 => rfl
    all_goals omega

/-- The register operand is in range exactly up to 2 (30_encoding.md R66). -/
theorem polyRegOfByte_eq (v : Byte) : polyRegOfByte v = if v.toNat ≤ 2 then some (regOf v) else none := by
  by_cases h : v.toNat ≤ 2
  · have hv : v = 0#8 ∨ v = 1#8 ∨ v = 2#8 := by bv_omega
    rcases hv with rfl | rfl | rfl <;> rfl
  · rw [if_neg h]
    unfold polyRegOfByte
    split
    case h_4 => rfl
    all_goals omega

/-! ## Illegal words -/

theorem acceptWord_of_decode_error {w : Word} {e : DecodeError} (h : decode w = .error e) {s : State} (hs : Accepting s) :
    acceptWord exec w s = turnedAway .illegalCommand s := by
  simp [acceptWord, hs, h, raise_of_recoverable (e := .illegalCommand) rfl]

/-- An operation code without a row is illegal with any operands (30_encoding.md R65). -/
theorem acceptWord_of_no_row {w : Word} (h : ∀ row ∈ encodingTable, row.op ≠ (fieldsOf w).op) {s : State}
    (hs : Accepting s) : acceptWord exec w s = turnedAway .illegalCommand s :=
  acceptWord_of_decode_error (decode_of_no_row (rowOf_eq_none.2 h)) hs

/-! ## The rows of the command map -/

/-- An operation code is encoded as `cmd` outside `bad` where these are the words that decode, and `cmd` what they decode to. -/
theorem encodedAs_of_decode {op : Byte} {bad : Fields → Prop} {cmd : Fields → Instr}
    (h : ∀ w i, (fieldsOf w).op = op → (decode w = .ok i ↔ ¬ bad (fieldsOf w) ∧ i = cmd (fieldsOf w))) :
    EncodedAs op bad cmd := by
  refine fun w hop => ⟨fun hgood => (h w _ hop).2 ⟨hgood, rfl⟩, fun hbad s hs => ?_⟩
  cases hd : decode w with
  | error e => exact acceptWord_of_decode_error hd hs
  | ok i => exact absurd hbad ((h w i hop).1 hd).1

/-- A row whose operands name a command exactly where `named` holds. -/
theorem encodedAs_of_row {op : Byte} {bad named : Fields → Prop} [DecidablePred named] {cmd : Fields → Instr}
    {row : EncodingRow} (hrow : rowOf op = some row)
    (hread : ∀ a b c, readOperands ⟨op, a, b, c⟩ = if named ⟨op, a, b, c⟩ then some (cmd ⟨op, a, b, c⟩) else none)
    (hgood : ∀ f, ¬ bad f ↔ row.format.unusedZero f = true ∧ named f ∧ (cmd f).wellFormed = true) :
    EncodedAs op bad cmd := by
  refine encodedAs_of_decode fun w i hop => ?_
  have hread' : readOperands (fieldsOf w) = if named (fieldsOf w) then some (cmd (fieldsOf w)) else none := by
    subst hop
    exact hread _ _ _
  rw [decode_eq_ok_of_row (hop ▸ hrow), hgood, hread']
  by_cases hn : named (fieldsOf w)
  · simp only [hn, if_true, Option.some.injEq, true_and]
    constructor
    · rintro ⟨hz, rfl, hwf⟩
      exact ⟨⟨hz, hwf⟩, rfl⟩
    · rintro ⟨⟨hz, hwf⟩, rfl⟩
      exact ⟨hz, rfl, hwf⟩
  · simp [hn]

/-- A row whose operands are all numbers: any of them names a command. -/
theorem encodedAs_of_numeric {op : Byte} {bad : Fields → Prop} {cmd : Fields → Instr} {row : EncodingRow}
    (hrow : rowOf op = some row) (hread : ∀ a b c, readOperands ⟨op, a, b, c⟩ = some (cmd ⟨op, a, b, c⟩))
    (hgood : ∀ f, ¬ bad f ↔ row.format.unusedZero f = true ∧ (cmd f).wellFormed = true) : EncodedAs op bad cmd :=
  encodedAs_of_row (named := fun _ => True) hrow (by simpa using hread) (by simpa using hgood)

/-- A row whose field `a` is a level. -/
theorem encodedAs_of_level {op : Byte} {bad : Fields → Prop} {g : Level → Byte → Instr} {row : EncodingRow}
    (hrow : rowOf op = some row) (hread : ∀ a b c, readOperands ⟨op, a, b, c⟩ = (levelOfByte a).map (g · c))
    (hgood : ∀ f, ¬ bad f ↔ row.format.unusedZero f = true ∧ f.a.toNat ≤ 3 ∧ (g (levelOf f.a) f.c).wellFormed = true) :
    EncodedAs op bad (fun f => g (levelOf f.a) f.c) := by
  refine encodedAs_of_row (named := fun f => f.a.toNat ≤ 3) hrow (fun a b c => ?_) hgood
  rw [hread, levelOfByte_eq]
  split <;> rfl

/-- A row whose field `a` is a polynomial register. -/
theorem encodedAs_of_reg {op : Byte} {bad : Fields → Prop} {g : PolyReg → Byte → Instr} {row : EncodingRow}
    (hrow : rowOf op = some row) (hread : ∀ a b c, readOperands ⟨op, a, b, c⟩ = (polyRegOfByte a).map (g · c))
    (hgood : ∀ f, ¬ bad f ↔ row.format.unusedZero f = true ∧ f.a.toNat ≤ 2 ∧ (g (regOf f.a) f.c).wellFormed = true) :
    EncodedAs op bad (fun f => g (regOf f.a) f.c) := by
  refine encodedAs_of_row (named := fun f => f.a.toNat ≤ 2) hrow (fun a b c => ?_) hgood
  rw [hread, polyRegOfByte_eq]
  split <;> rfl

/-- A row of format Z: one command, one word. -/
theorem encodedAs_z {op : Byte} {m : String} {i : Instr} (hrow : rowOf op = some ⟨op, m, .z⟩)
    (hread : ∀ a b c, readOperands ⟨op, a, b, c⟩ = some i) (hwf : i.wellFormed = true) :
    EncodedAs op (fun f => f.a ≠ 0#8 ∨ f.b ≠ 0#8 ∨ f.c ≠ 0#8) (fun _ => i) :=
  encodedAs_of_numeric hrow hread fun f => by simp [hwf]

/-- A row of format C whose operand takes every byte. -/
theorem encodedAs_c {op : Byte} {m : String} {cmd : Byte → Instr} (hrow : rowOf op = some ⟨op, m, .c⟩)
    (hread : ∀ a b c, readOperands ⟨op, a, b, c⟩ = some (cmd c)) (hwf : ∀ v, (cmd v).wellFormed = true) :
    EncodedAs op (fun f => f.a ≠ 0#8 ∨ f.b ≠ 0#8) (fun f => cmd f.c) :=
  encodedAs_of_numeric hrow hread fun f => by simp [hwf]

/-- A row of format C whose operand is at most `k` (30_encoding.md R66). -/
theorem encodedAs_c_le {op : Byte} {m : String} {cmd : Byte → Instr} {k : Nat} (hrow : rowOf op = some ⟨op, m, .c⟩)
    (hread : ∀ a b c, readOperands ⟨op, a, b, c⟩ = some (cmd c)) (hwf : ∀ v, (cmd v).wellFormed = decide (v.toNat ≤ k)) :
    EncodedAs op (fun f => f.a ≠ 0#8 ∨ f.b ≠ 0#8 ∨ k < f.c.toNat) (fun f => cmd f.c) :=
  encodedAs_of_numeric hrow hread fun f => by simp [hwf, and_assoc]

/-! ## The rows with a wider operand, or with a named one -/

theorem encodedAs_gexp : EncodedAs 0x10#8 (fun f => f.a ≠ 0#8) (fun f => .gexp (f.b ++ f.c)) :=
  encodedAs_of_numeric (row := ⟨_, "GEXP", .i⟩) rfl (fun _ _ _ => rfl) fun f => by simp [Instr.wellFormed]

theorem encodedAs_isdark : EncodedAs 0xA1#8 (fun f => f.a ≠ 0#8) (fun f => .isdark f.b f.c) :=
  encodedAs_of_numeric (row := ⟨_, "ISDARK", .bc⟩) rfl (fun _ _ _ => rfl) fun f => by simp [Instr.wellFormed]

theorem encodedAs_bbput : EncodedAs 0x51#8 (fun f => 16 < f.a.toNat) (fun f => .bbput f.a (f.b ++ f.c)) :=
  encodedAs_of_numeric (row := ⟨_, "BBPUT", .ai⟩) rfl (fun _ _ _ => rfl) fun f => by simp [Instr.wellFormed]

theorem encodedAs_maskq : EncodedAs 0x75#8 (fun f => 7 < f.a.toNat) (fun f => .maskq f.a f.b f.c) :=
  encodedAs_of_numeric (row := ⟨_, "MASKQ", .abc⟩) rfl (fun _ _ _ => rfl) fun f => by simp [Instr.wellFormed]

theorem encodedAs_pclr :
    EncodedAs 0x20#8 (fun f => 2 < f.a.toNat ∨ f.b ≠ 0#8 ∨ f.c ≠ 0#8) (fun f => .pclr (regOf f.a)) :=
  encodedAs_of_reg (row := ⟨_, "PCLR", .a⟩) (g := fun r _ => .pclr r) rfl (fun _ _ _ => rfl) fun f => by
    simp [Instr.wellFormed, and_comm]

theorem encodedAs_ppush : EncodedAs 0x21#8 (fun f => 2 < f.a.toNat ∨ f.b ≠ 0#8) (fun f => .ppush (regOf f.a) f.c) :=
  encodedAs_of_reg (row := ⟨_, "PPUSH", .ac⟩) rfl (fun _ _ _ => rfl) fun f => by simp [Instr.wellFormed, and_comm]

theorem encodedAs_vsel :
    EncodedAs 0x40#8 (fun f => 3 < f.a.toNat ∨ f.b ≠ 0#8 ∨ f.c ≠ 0#8) (fun f => .vsel (levelOf f.a)) :=
  encodedAs_of_level (row := ⟨_, "VSEL", .a⟩) (g := fun lvl _ => .vsel lvl) rfl (fun _ _ _ => rfl) fun f => by
    simp [Instr.wellFormed, and_comm]

theorem encodedAs_gen :
    EncodedAs 0xA0#8 (fun f => 3 < f.a.toNat ∨ f.b ≠ 0#8 ∨ f.c ≠ 0#8) (fun f => .gen (levelOf f.a)) :=
  encodedAs_of_level (row := ⟨_, "GEN", .a⟩) (g := fun lvl _ => .gen lvl) rfl (fun _ _ _ => rfl) fun f => by
    simp [Instr.wellFormed, and_comm]

/-- The version is in range from 1 to 40 (30_encoding.md R66). -/
theorem encodedAs_setvl :
    EncodedAs 0x41#8 (fun f => 3 < f.a.toNat ∨ f.b ≠ 0#8 ∨ f.c = 0#8 ∨ 40 < f.c.toNat)
      (fun f => .setvl (levelOf f.a) f.c) :=
  encodedAs_of_level (row := ⟨_, "SETVL", .ac⟩) rfl (fun _ _ _ => rfl) fun f => by
    have hc : ¬ f.c = 0#8 ↔ 1 ≤ f.c.toNat := by bv_omega
    simp [Instr.wellFormed, hc, and_left_comm]

/-- The 32 rows leave 224 operation codes undefined (30_encoding.md R65). -/
theorem undefinedOps_count :
    ((List.range 256).filter (fun n => encodingTable.all (fun row => row.op.toNat != n))).length = 224 := by
  decide +kernel

/-- Settles O6: each row by the lemma of its format or of its own, and the codes without a row by `acceptWord_of_no_row`. -/
theorem commandMapOfThirtyTwoRows : Obligations.CommandMapOfThirtyTwoRows :=
  ⟨encodedAs_z rfl (fun _ _ _ => rfl) rfl,
    encodedAs_gexp,
    encodedAs_c (cmd := .glog) rfl (fun _ _ _ => rfl) fun _ => rfl,
    encodedAs_pclr,
    encodedAs_ppush,
    encodedAs_z rfl (fun _ _ _ => rfl) rfl,
    encodedAs_z rfl (fun _ _ _ => rfl) rfl,
    encodedAs_c (cmd := .rsgen) rfl (fun _ _ _ => rfl) fun _ => rfl,
    encodedAs_z rfl (fun _ _ _ => rfl) rfl,
    encodedAs_c (cmd := .dbpush) rfl (fun _ _ _ => rfl) fun _ => rfl,
    encodedAs_c (cmd := .rsenc) rfl (fun _ _ _ => rfl) fun _ => rfl,
    encodedAs_vsel,
    encodedAs_setvl,
    encodedAs_z rfl (fun _ _ _ => rfl) rfl,
    encodedAs_bbput,
    encodedAs_z rfl (fun _ _ _ => rfl) rfl,
    encodedAs_z rfl (fun _ _ _ => rfl) rfl,
    encodedAs_z rfl (fun _ _ _ => rfl) rfl,
    encodedAs_z rfl (fun _ _ _ => rfl) rfl,
    encodedAs_z rfl (fun _ _ _ => rfl) rfl,
    encodedAs_c_le (cmd := .mxmap) rfl (fun _ _ _ => rfl) fun _ => rfl,
    encodedAs_z rfl (fun _ _ _ => rfl) rfl,
    encodedAs_maskq,
    encodedAs_z rfl (fun _ _ _ => rfl) rfl,
    encodedAs_z rfl (fun _ _ _ => rfl) rfl,
    encodedAs_c_le (cmd := .bchfmt) rfl (fun _ _ _ => rfl) fun _ => rfl,
    encodedAs_c_le (cmd := .bchver) rfl (fun _ _ _ => rfl) fun _ => rfl,
    encodedAs_gen,
    encodedAs_isdark,
    encodedAs_z rfl (fun _ _ _ => rfl) rfl,
    encodedAs_z rfl (fun _ _ _ => rfl) rfl,
    encodedAs_c (cmd := .plpush) rfl (fun _ _ _ => rfl) fun _ => rfl,
    fun _ _ hs hop => acceptWord_of_no_row hop hs,
    undefinedOps_count⟩

end Sys2Proof.Machine

/-! SUPPORT. The commands `GEXP` and `GLOG` (40_gf.md R85, R86). -/

namespace Sys2Proof.Machine

/-- A fatal error writes `ERR` and `FAULT` alone (60_exceptions.md R214). -/
theorem raise_of_fatal {e : ErrorCode} (h : isFatal e = true) (s : State) :
    raise e s = { s with err := .failed e, fault := true } := by simp [raise, h]

theorem exec_gexp {s : State} (hs : Accepting s) (n : BitVec 16) :
    exec (.gexp n) s = .next { s with res := (gexp n.toInt).setWidth 32, err := .ok } :=
  command_ok hs _

/-- `GLOG` is one lookup, whose answer goes to `RES`. -/
theorem exec_glog (n : Byte) (s : State) :
    exec (.glog n) s = command s (glog n >>= fun l => .ok (setRes (resOfNat l) s)) := rfl

theorem exec_glog_of_ne_zero {n : Byte} {s : State} (hs : Accepting s) (hn : n ≠ 0#8) :
    exec (.glog n) s = .next { s with res := BitVec.ofNat 32 (logEntry n), err := .ok } := by
  rw [exec_glog, glog_of_ne_zero hn, ok_bind, command_ok hs]
  rfl

theorem exec_glog_zero {s : State} (hs : Accepting s) : exec (.glog 0#8) s = stuckWith .glogZero s := by
  rw [exec_glog, glog_zero, error_bind, command_error hs, raise_of_fatal rfl]

/-- Settles O19: the body of `GEXP` cannot fail, and its word is a row with a 16-bit operand. -/
theorem gexpWritesTheExponentOfItsSignedOperand : Obligations.GexpWritesTheExponentOfItsSignedOperand :=
  ⟨fun n _ hs => exec_gexp hs n, encodedAs_gexp⟩

/-- Settles O20: the lookup of `GLOG` answers on every operand but 0, where its fatal error reaches the core. -/
theorem glogWritesTheLogarithmOrStopsTheCore : Obligations.GlogWritesTheLogarithmOrStopsTheCore :=
  ⟨fun _ _ hs hn => exec_glog_of_ne_zero hs hn, fun _ hs => exec_glog_zero hs, glog_zero, rfl, rfl,
    fun n hn => ⟨glog_of_ne_zero hn, Nat.le_of_lt_succ (logEntry_lt n)⟩,
    encodedAs_c (cmd := .glog) rfl (fun _ _ _ => rfl) fun _ => rfl⟩

end Sys2Proof.Machine

/-! SUPPORT. The commands `PCLR` and `PPUSH` (41_poly.md R93, R94). -/

namespace Sys2Proof.Machine

/-! ## A coefficient at the end -/

/-- The new end of a non-empty canonical polynomial is not its leading term, so the result is canonical too. -/
theorem canonical_append {p : Poly} (hne : p ≠ []) (hp : Canonical p) (q : List Byte) : Canonical (p ++ q) := by
  rw [Canonical, List.head?_append_of_ne_nil p hne]
  exact hp

theorem strip_singleton (v : Byte) : strip [v] = if v = 0#8 then [] else [v] := rfl

/-- `ERR` is no polynomial register. -/
@[simp] theorem readPoly_succeed (r : PolyReg) (s : State) : readPoly r (succeed s) = readPoly r s := by
  cases r <;> rfl

/-! ## The two commands -/

theorem exec_pclr {s : State} (hs : Accepting s) (r : PolyReg) :
    exec (.pclr r) s = .next (succeed (writePoly r [] s)) :=
  command_ok hs _

/-- `PPUSH` is one append, whose result is stripped. -/
theorem exec_ppush (r : PolyReg) (v : Byte) (s : State) :
    exec (.ppush r v) s = command s (appendTo (readPoly r s) [v] >>= fun p => .ok (writePoly r (strip p) s)) := rfl

theorem exec_ppush_of_room {r : PolyReg} {s : State} (hs : Accepting s) (hroom : (readPoly r s).length < 65535) (v : Byte) :
    exec (.ppush r v) s = .next (succeed (writePoly r (strip (readPoly r s ++ [v])) s)) := by
  rw [exec_ppush, appendTo_of_room (extra := [v]) hroom, ok_bind, command_ok hs]

theorem exec_ppush_of_full {r : PolyReg} {s : State} (hs : Accepting s) (hfull : (readPoly r s).length = 65535) (v : Byte) :
    exec (.ppush r v) s = turnedAway .illegalCommand s := by
  have hover : 65535 < (readPoly r s).length + [v].length := by simp [hfull]
  rw [exec_ppush, appendTo_of_no_room hover, error_bind, command_error hs, raise_of_recoverable rfl]

/-- Settles O22: the register reads back stripped, and stripping changes only what was pushed onto an empty register. -/
theorem pclrEmptiesAndPpushAppendsAndStrips : Obligations.PclrEmptiesAndPpushAppendsAndStrips := by
  refine ⟨fun s hs => ⟨exec_pclr hs .pa, exec_pclr hs .pb, exec_pclr hs .pr⟩, fun r v s hs hroom => ?_,
    fun r v s hs hfull => exec_ppush_of_full hs hfull v, encodedAs_pclr, encodedAs_ppush⟩
  have hread : readPoly r (succeed (writePoly r (strip (readPoly r s ++ [v])) s)) = strip (readPoly r s ++ [v]) := by
    simp [readPoly_writePoly]
  refine ⟨_, exec_ppush_of_room hs hroom v, rfl, hread, fun hne hcanonical => ?_, fun hempty => ?_⟩
  · rw [hread, strip_of_canonical (canonical_append hne hcanonical [v])]
  · rw [hread, hempty, List.nil_append, strip_singleton]

end Sys2Proof.Machine

/-! SUPPORT. The commands `DBPUSH` and `PLPUSH` (42_rs.md R104, 49_generate.md R202). -/

namespace Sys2Proof.Machine

/-- `DBPUSH` is one append, with no stripping. -/
theorem exec_dbpush (v : Byte) (s : State) :
    exec (.dbpush v) s = command s (appendTo s.db [v] >>= fun db => .ok { s with db := db }) := rfl

/-- `PLPUSH` is one append, with no stripping. -/
theorem exec_plpush (v : Byte) (s : State) :
    exec (.plpush v) s = command s (appendTo s.payload [v] >>= fun p => .ok { s with payload := p }) := rfl

/-- A command that appends one byte and finds room has the effect of its update on the longer buffer. -/
theorem command_appendTo_of_room {s : State} (hs : Accepting s) {buf : List Byte} (hroom : buf.length < 65535) (v : Byte)
    (update : List Byte → State) :
    command s (appendTo buf [v] >>= fun b => .ok (update b)) = .next (succeed (update (buf ++ [v]))) := by
  rw [appendTo_of_room (extra := [v]) hroom, ok_bind, command_ok hs]

/-- A command that appends one byte to a full buffer is turned away (60_exceptions.md R213 item 5). -/
theorem command_appendTo_of_full {s : State} (hs : Accepting s) {buf : List Byte} (hfull : buf.length = 65535) (v : Byte)
    (update : List Byte → State) :
    command s (appendTo buf [v] >>= fun b => .ok (update b)) = turnedAway .illegalCommand s := by
  have hover : 65535 < buf.length + [v].length := by simp [hfull]
  rw [appendTo_of_no_room hover, error_bind, command_error hs, raise_of_recoverable rfl]

/-- Settles O23: both commands are one append, which has room or finds the buffer full. -/
theorem bytePushesAppendAtTheEnd : Obligations.BytePushesAppendAtTheEnd := by
  refine ⟨fun v s hs => ⟨fun hroom => ?_, fun hfull => ?_, fun hroom => ?_, fun hfull => ?_⟩,
    encodedAs_c (cmd := .dbpush) rfl (fun _ _ _ => rfl) fun _ => rfl,
    encodedAs_c (cmd := .plpush) rfl (fun _ _ _ => rfl) fun _ => rfl⟩
  · exact (exec_dbpush v s).trans (command_appendTo_of_room hs hroom v _)
  · exact (exec_dbpush v s).trans (command_appendTo_of_full hs hfull v _)
  · exact (exec_plpush v s).trans (command_appendTo_of_room hs hroom v _)
  · exact (exec_plpush v s).trans (command_appendTo_of_full hs hfull v _)

end Sys2Proof.Machine

/-! SUPPORT. The coefficients of a product (41_poly.md R91), and the command `RSGEN` (42_rs.md R100, R102). -/

namespace Sys2Proof.Machine

/-! ## The coefficients of a product -/

theorem strip_eq_self_of_length {xs : List Byte} (h : (strip xs).length = xs.length) : strip xs = xs := by
  simpa [h, zeros] using zeros_append_strip xs

/-- Entry `k` of the lower sequence is XORed with entry `k` of the upper one, where there is one. -/
theorem xorLead_getElem? : ∀ (xs ys : List Byte) (k : Nat),
    (xorLead xs ys)[k]? = ys[k]?.map (xs.getD k 0#8 ^^^ ·)
  | [], ys, k => by simp [xorLead]
  | _ :: _, [], k => by simp [xorLead]
  | x :: xs, y :: ys, 0 => by simp [xorLead]
  | x :: xs, y :: ys, k + 1 => by simpa [xorLead] using xorLead_getElem? xs ys k

/-- A conditional XOR over a list starts from its initial value. -/
theorem foldl_ite_xor (p : Nat → Prop) [DecidablePred p] (t : Nat → Byte) :
    ∀ (l : List Nat) (c : Byte), l.foldl (fun acc i => if p i then acc ^^^ t i else acc) c
      = c ^^^ l.foldl (fun acc i => if p i then acc ^^^ t i else acc) 0#8
  | [], c => by simp
  | i :: l, c => by
    rw [List.foldl_cons, List.foldl_cons, foldl_ite_xor p t l, foldl_ite_xor p t l (if p i then 0#8 ^^^ t i else 0#8)]
    by_cases h : p i <;> simp [h, BitVec.xor_assoc]

theorem productCoefficient_nil (b : Poly) (k : Nat) : productCoefficient [] b k = 0#8 := by
  simp [productCoefficient]

/-- The lowest index pairs the two first coefficients alone. -/
theorem productCoefficient_zero (x : Byte) (xs b : Poly) :
    productCoefficient (x :: xs) b 0 = (b.map (gfProduct x)).getD 0 0#8 := by
  cases b <;> simp [productCoefficient]

/-- A later index pairs the first coefficient of the left factor once, and the rest of it as one index earlier. -/
theorem productCoefficient_succ (x : Byte) (xs b : Poly) (k : Nat) :
    productCoefficient (x :: xs) b (k + 1) = (b.map (gfProduct x)).getD (k + 1) 0#8 ^^^ productCoefficient xs b k := by
  have hfirst : (if k + 1 < b.length then gfProduct x (b.getD (k + 1) 0#8) else 0#8)
      = (b.map (gfProduct x)).getD (k + 1) 0#8 := by
    by_cases h : k + 1 < b.length <;> simp [h, List.getD]
  rw [productCoefficient, List.range_succ_eq_map, List.foldl_cons, foldl_ite_xor, List.foldl_map, ← hfirst]
  simp [productCoefficient]

/-- The product before `Strip` holds the coefficients of R91. -/
theorem mulRows_getElem? {b : Poly} (hb : NoZero b) : ∀ {a r : Poly}, NoZero a → mulRows a b = .ok r →
    ∀ k < r.length, r[k]? = some (productCoefficient a b k)
  | [], r, _, h, k, hk => by
    cases h
    rw [zeros_length] at hk
    simp [productCoefficient_nil, zeros, hk]
  | x :: xs, r, ha, h, k, hk => by
    have hx : x ≠ 0#8 := ha x (by simp)
    have hxs : NoZero xs := fun y hy => ha y (List.mem_cons_of_mem _ hy)
    rw [mulRows, mulRow_ok hx hb, ok_bind, bind_eq_ok] at h
    obtain ⟨rest, hrest, h⟩ := h
    cases h
    rw [xorLead_getElem?]
    cases k with
    | zero => simp [productCoefficient_zero]
    | succ k =>
      have hk' : k < rest.length := by simpa using hk
      rw [List.getElem?_cons_succ, mulRows_getElem? hb hxs hrest k hk', productCoefficient_succ]
      rfl

/-- The product of two non-empty factors without a zero coefficient, coefficient by coefficient. -/
theorem polyMul_getElem? {a b p : Poly} (ha : a ≠ []) (hb : b ≠ []) (hza : NoZero a) (hzb : NoZero b)
    (h : polyMul a b = .ok p) : ∀ k < p.length, p[k]? = some (productCoefficient a b k) := by
  obtain ⟨p', hp', hlen, -⟩ := polyMul_ok ha hb hza hzb
  obtain ⟨r, hr⟩ := mulRows_ok hzb hza
  have hstrip : polyMul a b = .ok (strip r) := by simp [polyMul, ha, hb, hr]
  obtain rfl : p' = p := by simpa [h] using hp'.symm
  obtain rfl : p' = strip r := by simpa [h] using hstrip
  rw [strip_eq_self_of_length (hlen.trans (mulRows_length hb hr).symm)]
  exact mulRows_getElem? hzb hza hr

/-! ## The generator -/

theorem noZero_factor (k : Nat) : NoZero [1#8, gexp (k : Int)] := by simp [NoZero, gexp_ne_zero]

/-- The step of R100: the next generator is the product with the next factor, coefficient by coefficient. -/
theorem generator_succ {ec : Nat} (h : ec < 255) :
    ∃ g g', generator ec = .ok g ∧ generator (ec + 1) = .ok g' ∧ NoZero g ∧ g'.length = ec + 2 ∧
      ∀ k < ec + 2, g'[k]? = some (productCoefficient g [1#8, gexp (ec : Int)] k) := by
  obtain ⟨g, hg, hlen⟩ := generator_ok (show ec ≤ 255 by omega)
  obtain ⟨g', hg', hlen'⟩ := generator_ok (show ec + 1 ≤ 255 by omega)
  have hne : g ≠ [] := List.ne_nil_of_length_eq_add_one hlen
  have hnz : NoZero g := generator_noZero (show ec ≤ 254 by omega) hg
  have hmul : polyMul g [1#8, gexp (ec : Int)] = .ok g' := by simpa [generator, hg] using hg'
  refine ⟨g, g', hg, hg', hnz, hlen', fun k hk => ?_⟩
  exact polyMul_getElem? hne (by simp) hnz (noZero_factor ec) hmul k (hlen' ▸ hk)

/-- Every factor is monic, and so is the generator. -/
theorem generator_head {ec : Nat} {g : Poly} (h : ec ≤ 255) (hg : generator ec = .ok g) : g.head? = some 1#8 := by
  induction ec generalizing g with
  | zero =>
    cases hg
    rfl
  | succ ec ih =>
    obtain ⟨f, g', hf, hg', -, -, hcoef⟩ := generator_succ (show ec < 255 by omega)
    obtain rfl : g = g' := by simpa [hg] using hg'
    obtain ⟨fs, rfl⟩ := List.head?_eq_some_iff.1 (ih (by omega) hf)
    rw [List.head?_eq_getElem?, hcoef 0 (by omega), productCoefficient_zero, List.map_cons, gfProduct_one (by decide)]
    rfl

/-! ## `RSGEN` -/

theorem exec_rsgen (ec : Byte) (s : State) :
    exec (.rsgen ec) s = command s (generator ec.toNat >>= fun g => .ok { s with pr := g }) := rfl

theorem exec_rsgen_of_generator {ec : Byte} {s : State} {g : Poly} (hs : Accepting s) (hg : generator ec.toNat = .ok g) :
    exec (.rsgen ec) s = .next { s with pr := g, err := .ok } := by
  rw [exec_rsgen, hg, ok_bind, command_ok hs]
  rfl

/-- Settles O27: the generator exists for every byte, and each of its steps is one product that cannot fault. -/
theorem rsgenWritesTheGeneratorForEveryCount : Obligations.RsgenWritesTheGeneratorForEveryCount := by
  refine ⟨fun ec s hs => ?_, rfl, fun ec h => generator_succ h, generator_255,
    encodedAs_c (cmd := .rsgen) rfl (fun _ _ _ => rfl) fun _ => rfl⟩
  have hec : ec.toNat ≤ 255 := by bv_omega
  obtain ⟨g, hg, hlen⟩ := generator_ok hec
  exact ⟨g, hg, exec_rsgen_of_generator hs hg, hlen, generator_head hec hg⟩

end Sys2Proof.Machine

/-! SUPPORT. The division as a whole (41_poly.md R92), and the command `RSENC` (42_rs.md R101, R105). -/

namespace Sys2Proof.Machine

/-! ## Stripping a sequence with zeros after it -/

theorem strip_eq_nil_of_zero : ∀ {xs : List Byte}, (∀ x ∈ xs, x = 0#8) → strip xs = []
  | [], _ => rfl
  | x :: xs, h => by
    rw [h x (by simp), strip_cons_zero]
    exact strip_eq_nil_of_zero fun y hy => h y (List.mem_cons_of_mem _ hy)

/-- From the first non-zero byte on, nothing is stripped. -/
theorem length_lt_strip_append_length : ∀ {xs : List Byte}, (∃ x ∈ xs, x ≠ 0#8) → ∀ ys,
    ys.length < (strip (xs ++ ys)).length
  | x :: xs, h, ys => by
    by_cases hx : x = 0#8
    · subst hx
      rw [List.cons_append, strip_cons_zero]
      exact length_lt_strip_append_length (by simpa using h) ys
    · rw [List.cons_append, strip_cons_of_ne hx]
      simp

/-! ## The division -/

theorem lead_ne_zero {p : Poly} (hne : p ≠ []) (hp : Canonical p) : lead p ≠ 0#8 := by
  cases p with
  | nil => exact absurd rfl hne
  | cons x xs => simpa [Canonical, lead] using hp

theorem lead_ne_zero_of_noZero {p : Poly} (hne : p ≠ []) (hp : NoZero p) : lead p ≠ 0#8 := by
  cases p with
  | nil => exact absurd rfl hne
  | cons x xs => exact hp x (by simp)

/-- An iteration answers only where the divisor has no zero coefficient: each is looked up. -/
theorem modStep_noZero {a b a' : Poly} (h : modStep a b = .ok a') : NoZero b := by
  rw [modStep, bind_eq_ok] at h
  obtain ⟨_, -, h⟩ := h
  rw [bind_eq_ok] at h
  obtain ⟨_, -, h⟩ := h
  rw [bind_eq_ok] at h
  obtain ⟨_, hscaled, -⟩ := h
  intro y hy
  obtain ⟨z, hz⟩ := (mapM_eq_ok hscaled).2 y hy
  rw [scaleTerm, bind_eq_ok] at hz
  obtain ⟨l, hl, -⟩ := hz
  exact (glog_eq_ok.1 hl).1

theorem modLoop_of_short {fuel : Nat} {a b : Poly} (h : a.length < b.length) : modLoop fuel a b = .ok a := by
  cases fuel with
  | zero => rfl
  | succ fuel => rw [modLoop, if_pos h]

theorem modLoop_of_long {fuel : Nat} {a b : Poly} (h : b.length ≤ a.length) :
    modLoop (fuel + 1) a b = modStep a b >>= fun a' => modLoop fuel a' b := by
  rw [modLoop, if_neg (by omega)]

/-- With enough fuel the loop ends by itself, and what is left is shorter than the divisor. -/
theorem modLoop_ok {b : Poly} (hne : b ≠ []) (hb : NoZero b) {fuel : Nat} {a : Poly} (hfuel : a.length < fuel)
    (ha : Canonical a) : ∃ r, modLoop fuel a b = .ok r ∧ r.length < b.length ∧ Canonical r := by
  induction fuel generalizing a with
  | zero => omega
  | succ fuel ih =>
    by_cases hshort : a.length < b.length
    · exact ⟨a, modLoop_of_short hshort, hshort, ha⟩
    · have hlong : b.length ≤ a.length := by omega
      have hane : a ≠ [] := List.ne_nil_of_length_pos (Nat.lt_of_lt_of_le (List.length_pos_iff.2 hne) hlong)
      obtain ⟨a', ha'⟩ := modStep_ok (lead_ne_zero hane ha) (lead_ne_zero_of_noZero hne hb) hb
      have hfuel' : a'.length < fuel := by
        have := modStep_shortens ha'
        omega
      rw [modLoop_of_long hlong, ha', ok_bind]
      exact ih hfuel' (modStep_canonical ha')

theorem polyMod_ok {a b : Poly} (ha : Canonical a) (hne : b ≠ []) (hb : NoZero b) :
    ∃ r, polyMod a b = .ok r ∧ r.length < b.length ∧ Canonical r :=
  modLoop_ok hne hb (Nat.lt_succ_self _) ha

theorem polyMod_of_short {a b : Poly} (h : a.length < b.length) : polyMod a b = .ok a := modLoop_of_short h

/-- A division that takes place by a divisor with a zero coefficient faults in its first iteration. -/
theorem polyMod_fault {a b : Poly} (hlong : b.length ≤ a.length) (hb : ¬ NoZero b) : polyMod a b = .error .glogZero := by
  have hstep : modStep a b = .error .glogZero := by
    cases h : modStep a b with
    | ok a' => exact absurd (modStep_noZero h) hb
    | error e => rw [modStep_error h]
  rw [polyMod, modLoop_of_long hlong, hstep, error_bind]

/-! ## The parity of one block -/

theorem rsEncode_of_generator {ec : Nat} {g : Poly} (hg : generator ec = .ok g) (d : List Byte) :
    rsEncode d ec = polyMod (strip (d ++ zeros ec)) g >>= fun rem => .ok (zeros (ec - rem.length) ++ rem) := by
  rw [rsEncode, hg, ok_bind]
  rfl

/-- The zeros that `Strip` removed are restored, so the parity has `ec` bytes whatever the data. -/
theorem rsEncode_ok_of_remainder {d : List Byte} {ec : Nat} {g rem : Poly} (hg : generator ec = .ok g)
    (hrem : polyMod (strip (d ++ zeros ec)) g = .ok rem) (hlen : rem.length ≤ ec) :
    ∃ e, rsEncode d ec = .ok e ∧ e.length = ec := by
  refine ⟨zeros (ec - rem.length) ++ rem, by rw [rsEncode_of_generator hg, hrem, ok_bind], ?_⟩
  rw [List.length_append, zeros_length]
  omega

/-- Up to `ec = 254` the division cannot fault. -/
theorem rsEncode_ok {ec : Nat} (h : ec ≤ 254) (d : List Byte) : ∃ e, rsEncode d ec = .ok e ∧ e.length = ec := by
  obtain ⟨g, hg, hlen⟩ := generator_ok (show ec ≤ 255 by omega)
  have hne : g ≠ [] := List.ne_nil_of_length_eq_add_one hlen
  obtain ⟨rem, hrem, hshort, -⟩ := polyMod_ok (strip_canonical (d ++ zeros ec)) hne (generator_noZero h hg)
  exact rsEncode_ok_of_remainder hg hrem (by omega)

/-- All-zero data is the zero polynomial, which no divisor is applied to. -/
theorem rsEncode_ok_of_zero {ec : Nat} (h : ec ≤ 255) {d : List Byte} (hd : ∀ x ∈ d, x = 0#8) :
    ∃ e, rsEncode d ec = .ok e ∧ e.length = ec := by
  obtain ⟨g, hg, hlen⟩ := generator_ok h
  have hraw : strip (d ++ zeros ec) = [] := by
    refine strip_eq_nil_of_zero fun x hx => ?_
    rcases List.mem_append.1 hx with hx | hx
    · exact hd x hx
    · exact List.eq_of_mem_replicate hx
  have hrem : polyMod (strip (d ++ zeros ec)) g = .ok [] := by
    rw [hraw]
    exact polyMod_of_short (by simp [hlen])
  exact rsEncode_ok_of_remainder hg hrem (Nat.zero_le _)

/-- The generator of 255 has zero coefficients, so it divides nothing but the zero polynomial. -/
theorem rsEncode_255_fault {d : List Byte} (hd : ∃ x ∈ d, x ≠ 0#8) : rsEncode d 255 = .error .glogZero := by
  have hlong : (1#8 :: zeros 254 ++ [1#8]).length ≤ (strip (d ++ zeros 255)).length := by
    simpa [Nat.succ_le_iff] using length_lt_strip_append_length hd (zeros 255)
  have hzero : ¬ NoZero (1#8 :: zeros 254 ++ [1#8]) := fun h =>
    h 0#8 (List.mem_append_left _ (List.mem_cons_of_mem _ (List.mem_replicate.2 ⟨by decide, rfl⟩))) rfl
  rw [rsEncode_of_generator generator_255, polyMod_fault hlong hzero, error_bind]

/-! ## `RSENC` -/

theorem exec_rsenc_of_room {ec : Byte} {s : State} (hroom : s.db.length + ec.toNat ≤ 65535) :
    exec (.rsenc ec) s = command s (rsEncode s.db ec.toNat >>= fun e => .ok { s with ecb := e }) := by
  have hle : ¬ s.db.length + ec.toNat > lenMax := Nat.not_lt.2 hroom
  simp [exec, execRsenc, hle]

theorem exec_rsenc_of_ok {ec : Byte} {s : State} {e : List Byte} (hs : Accepting s)
    (hroom : s.db.length + ec.toNat ≤ 65535) (he : rsEncode s.db ec.toNat = .ok e) :
    exec (.rsenc ec) s = .next { s with ecb := e, err := .ok } := by
  rw [exec_rsenc_of_room hroom, he, ok_bind, command_ok hs]
  rfl

theorem exec_rsenc_of_no_room {ec : Byte} {s : State} (hs : Accepting s) (hover : 65535 < s.db.length + ec.toNat) :
    exec (.rsenc ec) s = turnedAway .illegalCommand s := by
  have hgt : s.db.length + ec.toNat > lenMax := hover
  have hbody : exec (.rsenc ec) s = command s (.error .illegalCommand) := by simp [exec, execRsenc, hgt]
  rw [hbody, command_error hs, raise_of_recoverable rfl]

theorem exec_rsenc_of_parityFaults {ec : Byte} {s : State} (hs : Accepting s) (h : ParityFaults ec s) :
    exec (.rsenc ec) s = stuckWith .glogZero s := by
  obtain ⟨rfl, hroom, hdata⟩ := h
  have hfault : rsEncode s.db (255#8).toNat = .error .glogZero := rsEncode_255_fault hdata
  rw [exec_rsenc_of_room hroom, hfault, error_bind, command_error hs, raise_of_fatal rfl]

/-- A block in bounds whose parity does not fault has `ec` parity bytes. -/
theorem rsEncode_ok_of_not_parityFaults {ec : Byte} {s : State} (hroom : s.db.length + ec.toNat ≤ 65535)
    (h : ¬ ParityFaults ec s) : ∃ e, rsEncode s.db ec.toNat = .ok e ∧ e.length = ec.toNat := by
  by_cases hec : ec = 255#8
  · subst hec
    have hzero : ∀ x ∈ s.db, x = 0#8 := fun x hx => by
      by_contra hne
      exact h ⟨rfl, hroom, x, hx, hne⟩
    exact rsEncode_ok_of_zero (Nat.le_refl 255) hzero
  · exact rsEncode_ok (by bv_omega) s.db

/-- Settles O28: in bounds the parity exists unless `ec = 255` meets a non-zero byte, where the division faults. -/
theorem rsencWritesExactlyEcParityBytes : Obligations.RsencWritesExactlyEcParityBytes := by
  refine ⟨fun ec s hs hroom hok => ?_, fun _ _ hs hover => exec_rsenc_of_no_room hs hover,
    fun _ _ hs h => exec_rsenc_of_parityFaults hs h,
    encodedAs_c (cmd := .rsenc) rfl (fun _ _ _ => rfl) fun _ => rfl⟩
  obtain ⟨e, he, hlen⟩ := rsEncode_ok_of_not_parityFaults hroom hok
  exact ⟨e, he, exec_rsenc_of_ok hs hroom he, hlen⟩

end Sys2Proof.Machine

/-! SUPPORT. The command `MXRST` (46_matrix.md R146). -/

namespace Sys2Proof.Machine

/-- `MXRST` has one precondition, and what it writes depends on the version alone. -/
theorem exec_mxrst (s : State) :
    exec .mxrst s = command s (requireVersion s >>= fun _ => .ok
      { s with n := moduleCount s.ver, mx := unsetGrid (moduleCount s.ver).toNat, stage := .empty }) := rfl

theorem exec_mxrst_of_version {s : State} (hs : Accepting s) (hver : VersionSelected s) :
    exec .mxrst s = .next { s with
      n := moduleCount s.ver, mx := unsetGrid (4 * s.ver.toNat + 17), stage := .empty, err := .ok } := by
  have hne : s.ver ≠ 0#6 := by bv_omega
  rw [exec_mxrst, requireVersion_eq_ok (u := ()) |>.2 hne, ok_bind, command_ok hs, moduleCount_toNat hver.2]
  rfl

theorem exec_mxrst_of_no_version {s : State} (hs : Accepting s) (hver : s.ver = 0#6) :
    exec .mxrst s = turnedAway .illegalCommand s := by
  have hrequire : requireVersion s = .error .illegalCommand := if_pos hver
  rw [exec_mxrst, hrequire, error_bind, command_error hs, raise_of_recoverable rfl]

/-- The host reads code 0 at every position of a matrix without assigned cells (20_memory.md R48). -/
theorem readMatrix_of_unsetGrid {s : State} {m row col : Nat} (hmx : s.mx = unsetGrid m) (hr : row < s.n.toNat)
    (hc : col < s.n.toNat) : readMatrix row col s = some 0 := by
  rw [readMatrix, if_pos ⟨hr, hc⟩, hmx, getCell_unsetGrid]
  rfl

/-- Settles O36: the one precondition is a selected version, whose side fits the register and the matrix. -/
theorem mxrstStartsAnUnsetMatrixOfTheVersionsSide : Obligations.MxrstStartsAnUnsetMatrixOfTheVersionsSide :=
  ⟨fun _ hs hver => ⟨_, exec_mxrst_of_version hs hver, rfl, moduleCount_toNat hver.2,
      fun _ hr _ hc => readMatrix_of_unsetGrid rfl hr hc⟩,
    fun _ hs hver => exec_mxrst_of_no_version hs hver,
    encodedAs_z rfl (fun _ _ _ => rfl) rfl⟩

end Sys2Proof.Machine

/-! SUPPORT. The command `MASKQ` and its predicates (46_matrix.md R158, R162). -/

namespace Sys2Proof.Machine

/-! ## The periods of the predicates -/

/-- A multiple of 6 changes neither of the two remainders that the predicates look at. -/
theorem add_six_mul_mod (p q : Nat) : (p + 6 * q) % 2 = p % 2 ∧ (p + 6 * q) % 3 = p % 3 := by omega

/-- Every predicate has period 6 in the column. -/
theorem maskPred_col_add_six (k : BitVec 3) (i j : Nat) : maskPred k i (j + 6) = maskPred k i j := by
  have hproduct : i * (j + 6) = i * j + 6 * i := by rw [Nat.mul_add, Nat.mul_comm i 6]
  obtain ⟨hmod2, hmod3⟩ := add_six_mul_mod (i * j) i
  unfold maskPred
  rw [hproduct]
  split <;> refine congrArg (· == 0) ?_ <;> omega

/-- Every predicate but that of mask 4 has period 6 in the row as well. -/
theorem maskPred_row_add_six {k : BitVec 3} (hk : k ≠ 4#3) (i j : Nat) : maskPred k (i + 6) j = maskPred k i j := by
  have hk4 : k.toNat ≠ 4 := by bv_omega
  obtain ⟨hmod2, hmod3⟩ := add_six_mul_mod (i * j) j
  unfold maskPred
  rw [Nat.add_mul]
  split
  case h_5 h => exact absurd h hk4
  all_goals
    refine congrArg (· == 0) ?_
    omega

theorem maskPred_four (i j : Nat) : maskPred 4#3 i j = ((i / 2 + j / 3) % 2 == 0) := rfl

/-- Six rows down, the predicate of mask 4 has the opposite answer, for `row / 2` has grown by 3. -/
theorem maskPred_four_row_add_six (i j : Nat) : maskPred 4#3 (i + 6) j = !maskPred 4#3 i j := by
  have hflip : ((i + 6) / 2 + j / 3) % 2 = 1 - (i / 2 + j / 3) % 2 := by omega
  rw [maskPred_four, maskPred_four, hflip]
  rcases Nat.mod_two_eq_zero_or_one (i / 2 + j / 3) with h | h <;> rw [h] <;> rfl

/-! ## `MASKQ` -/

/-- The table of the predicates, for a mask operand in range (46_matrix.md R158). -/
theorem maskPred_setWidth {k : Byte} (hk : k.toNat ≤ 7) (i j : Nat) :
    maskPred (k.setWidth 3) i j = true ↔
      (k = 0#8 ∧ (i + j) % 2 = 0) ∨ (k = 1#8 ∧ i % 2 = 0) ∨ (k = 2#8 ∧ j % 3 = 0) ∨ (k = 3#8 ∧ (i + j) % 3 = 0) ∨
      (k = 4#8 ∧ (i / 2 + j / 3) % 2 = 0) ∨ (k = 5#8 ∧ (i * j) % 2 + (i * j) % 3 = 0) ∨
      (k = 6#8 ∧ ((i * j) % 2 + (i * j) % 3) % 2 = 0) ∨ (k = 7#8 ∧ ((i * j) % 3 + (i + j) % 2) % 2 = 0) := by
  have hcases : k = 0#8 ∨ k = 1#8 ∨ k = 2#8 ∨ k = 3#8 ∨ k = 4#8 ∨ k = 5#8 ∨ k = 6#8 ∨ k = 7#8 := by bv_omega
  rcases hcases with rfl | rfl | rfl | rfl | rfl | rfl | rfl | rfl <;> simp [maskPred]

/-- With its mask in range, `MASKQ` writes the answer of the predicate and reads no state. -/
theorem exec_maskq {k : Byte} (hk : k.toNat ≤ 7) (row col : Byte) {s : State} (hs : Accepting s) :
    exec (.maskq k row col) s = .next { s with
      res := resOfBool (maskPred (k.setWidth 3) row.toNat col.toNat), err := .ok } := by
  have hmask : maskOperand k = .ok (k.setWidth 3) := if_pos hk
  simp [exec, execMaskq, hmask, hs, succeed, setRes]

/-- Refutes O44: the predicate of mask 4 holds at (0, 0) and not at (6, 0), so 6 is no period of it in the row, against the
remark of R158. The other clauses hold: `exec_maskq` with `maskPred_setWidth`, `maskPred_col_add_six`, `encodedAs_maskq`,
and `maskPred_row_add_six` for the other masks. -/
theorem not_maskqAnswersThePredicate : ¬ Obligations.MaskqAnswersThePredicate := by
  rintro ⟨-, hperiod, -⟩
  have hrow : maskPred 4#3 (0 + 6) 0 = maskPred 4#3 0 0 := (hperiod 4#3 0 0).1
  rw [maskPred_four_row_add_six] at hrow
  exact absurd hrow (by decide)

end Sys2Proof.Machine

/-! SUPPORT. The balance score `PenD` (47_mask_eval.md R179). -/

namespace Sys2Proof.Machine

/-- The two truncated differences together are the distance of the two counts. -/
theorem absDiff_eq_natAbs (a b : Nat) : absDiff a b = ((a : Int) - b).natAbs := by
  unfold absDiff
  omega

/-- Counting row by row counts every cell of the grid once. -/
theorem darkCount_eq_count_flatten (rows : List (List Bool)) : darkCount rows = rows.flatten.count true :=
  List.count_flatten.symm

/-- The integer form of R179, with the signed difference in place of the truncated ones. -/
theorem penD_eq_natAbs (n : Nat) (rows : List (List Bool)) :
    penD n rows = 10 * ((100 * (darkCount rows : Int) - 50 * ((n : Int) * n)).natAbs / (5 * (n * n))) := by
  rw [penD, absDiff_eq_natAbs]
  norm_cast

/-- Over the common denominator, the distance of the share of dark cells from 50 percent is an integer divided by `total`. -/
theorem abs_percent_sub_fifty (dark : Nat) {total : Nat} (htotal : 0 < total) :
    |100 * (dark : ℚ) / total - 50| = ((100 * (dark : Int) - 50 * total).natAbs : ℚ) / total := by
  have hpos : (0 : ℚ) < total := Nat.cast_pos.2 htotal
  rw [div_sub' hpos.ne', abs_div, abs_of_pos hpos, Nat.cast_natAbs]
  push_cast
  rw [mul_comm (total : ℚ) 50]

/-- The one floor of R179, taken of an exact quotient, is an integer division (R179, second form). -/
theorem floor_abs_percent_sub_fifty (dark : Nat) {total : Nat} (htotal : 0 < total) :
    ⌊|100 * (dark : ℚ) / total - 50| / 5⌋ = (((100 * (dark : Int) - 50 * total).natAbs / (5 * total) : Nat) : Int) := by
  have hquotient : |100 * (dark : ℚ) / total - 50| / 5 =
      ((100 * (dark : Int) - 50 * total).natAbs : ℚ) / (5 * total : Nat) := by
    rw [abs_percent_sub_fifty dark htotal, div_div, mul_comm (total : ℚ) 5, Nat.cast_mul, Nat.cast_ofNat]
  rw [hquotient, Rat.floor_natCast_div_natCast, Int.natCast_ediv]

/-- Settles O49: over the common denominator `5 × total` the exact floor is the integer division of `penD`. -/
theorem balanceScoreIsTheExactRationalFloor : Obligations.BalanceScoreIsTheExactRationalFloor := by
  intro n rows hn
  refine ⟨?_, darkCount_eq_count_flatten rows, penD_eq_natAbs n rows⟩
  rw [← Nat.cast_mul n n, floor_abs_percent_sub_fifty (darkCount rows) (Nat.mul_pos hn hn), penD_eq_natAbs, Nat.cast_mul n n,
    Nat.cast_mul 10, Nat.cast_ofNat]

end Sys2Proof.Machine

/-! SUPPORT. The commands `BCHFMT` and `BCHVER` (48_bch.md R192, R193). -/

namespace Sys2Proof.Machine

/-! ## The operands -/

theorem formatOperand_of_le {d : Byte} (h : d.toNat ≤ 31) : formatOperand d = .ok (BitVec.ofNat 5 d.toNat) := by
  rw [BitVec.ofNat_toNat]
  exact if_pos h

theorem versionWordOperand_of_le {v : Byte} (h : v.toNat ≤ 63) :
    versionWordOperand v = .ok (BitVec.ofNat 6 v.toNat) := by
  rw [BitVec.ofNat_toNat]
  exact if_pos h

/-! ## The commands -/

/-- `BCHFMT` checks its operand and then writes the format word of it. -/
theorem exec_bchfmt (d : Byte) (s : State) :
    exec (.bchfmt d) s = command s (formatOperand d >>= fun data => .ok (setRes ((bchFormat data).setWidth 32) s)) := rfl

/-- `BCHVER` checks its operand and then writes the version word of it. -/
theorem exec_bchver (v : Byte) (s : State) :
    exec (.bchver v) s =
      command s (versionWordOperand v >>= fun data => .ok (setRes ((bchVersion data).setWidth 32) s)) := rfl

theorem exec_bchfmt_of_le {d : Byte} {s : State} (hs : Accepting s) (hd : d.toNat ≤ 31) :
    exec (.bchfmt d) s = .next { s with res := (bchFormat (BitVec.ofNat 5 d.toNat)).setWidth 32, err := .ok } := by
  rw [exec_bchfmt, formatOperand_of_le hd, ok_bind, command_ok hs]
  rfl

theorem exec_bchver_of_le {v : Byte} {s : State} (hs : Accepting s) (hv : v.toNat ≤ 63) :
    exec (.bchver v) s = .next { s with res := (bchVersion (BitVec.ofNat 6 v.toNat)).setWidth 32, err := .ok } := by
  rw [exec_bchver, versionWordOperand_of_le hv, ok_bind, command_ok hs]
  rfl

/-- Settles O45: an operand in range passes its check unchanged, and each word is a row of format C with a bounded operand. -/
theorem bchCommandsWriteTheirCodeWords : Obligations.BchCommandsWriteTheirCodeWords :=
  ⟨fun _ _ hs hd => exec_bchfmt_of_le hs hd, fun _ _ hs hv => exec_bchver_of_le hs hv,
    encodedAs_c_le (cmd := .bchfmt) rfl (fun _ _ _ => rfl) fun _ => rfl,
    encodedAs_c_le (cmd := .bchver) rfl (fun _ _ _ => rfl) fun _ => rfl⟩

end Sys2Proof.Machine

/-! SUPPORT. The commands that cannot fail: `NOP`, `PLRST`, `DBRST`, `BBRST` and `MODCNT` (49_generate.md R200, R201, R205;
42_rs.md R103; 44_bitbuf.md R122). -/

namespace Sys2Proof.Machine

/-- Settles O21: the body of each of the five cannot fail, and each word is a row of format Z. -/
theorem nopModcntAndClearsAlwaysComplete : Obligations.NopModcntAndClearsAlwaysComplete := by
  refine ⟨fun s hs => ⟨command_ok hs s, command_ok hs _, command_ok hs _, command_ok hs _, command_ok hs _⟩,
    fun op i hrow => ?_⟩
  simp only [List.mem_cons, List.not_mem_nil, or_false, Prod.mk.injEq] at hrow
  obtain ⟨rfl, rfl⟩ | ⟨rfl, rfl⟩ | ⟨rfl, rfl⟩ | ⟨rfl, rfl⟩ | ⟨rfl, rfl⟩ := hrow
  all_goals exact encodedAs_z rfl (fun _ _ _ => rfl) rfl

end Sys2Proof.Machine

/-! SUPPORT. The entries of the block table as total functions, and what every entry keeps (42_rs.md R106, R107). -/

namespace Sys2Proof.Machine

/-! ## The entries -/

/-- `Blocks(v, lvl)` as a value, empty for a version outside 1..40. -/
def tableBlocks (v : Nat) (lvl : Level) : List Block := (blocks v lvl).toOption.getD []

/-- `DataCw(v, lvl)` as a value. -/
def tableData (v : Nat) (lvl : Level) : Nat := ((tableBlocks v lvl).map Block.data).sum

/-- `TotalCw(v, lvl)` as a value. -/
def tableTotal (v : Nat) (lvl : Level) : Nat := ((tableBlocks v lvl).map Block.total).sum

/-- `Capacity(v, lvl)` as a value. -/
def tableCapacity (v : Nat) (lvl : Level) : Nat := (8 * tableData v lvl - 4 - lenBits v) / 8

section
variable {v : Nat} (lvl : Level) (h1 : 1 ≤ v) (h2 : v ≤ 40)
include h1 h2

theorem blocks_eq_table : blocks v lvl = .ok (tableBlocks v lvl) := by
  obtain ⟨bs, hbs⟩ := blocks_ok lvl h1 h2
  rw [tableBlocks, hbs]
  rfl

theorem dataCw_eq_table : dataCw v lvl = .ok (tableData v lvl) := by
  rw [dataCw, blocks_eq_table lvl h1 h2]
  rfl

theorem totalCw_eq_table : totalCw v lvl = .ok (tableTotal v lvl) := by
  rw [totalCw, blocks_eq_table lvl h1 h2]
  rfl

theorem capacity_eq_table : capacity v lvl = .ok (tableCapacity v lvl) := by
  rw [capacity, dataCw_eq_table lvl h1 h2]
  rfl

end

/-! ## What every entry keeps -/

/-- No block has fewer codewords than data codewords, or more EC codewords than a generator without zero coefficients serves. -/
theorem tableBlocks_ec_le (lvl : Level) :
    ∀ v ≤ 40, ∀ b ∈ tableBlocks v lvl, b.data ≤ b.total ∧ b.total - b.data ≤ 254 := by
  cases lvl <;> decide +kernel

/-- The mode and the length field leave room in every version. -/
theorem header_le_tableData (lvl : Level) : ∀ v ≤ 40, 1 ≤ v → 4 + lenBits v ≤ 8 * tableData v lvl := by
  cases lvl <;> decide +kernel

/-- Version 40 holds the most (43_version_select.md R111). -/
theorem tableCapacity_le_forty (lvl : Level) : ∀ v ≤ 40, tableCapacity v lvl ≤ tableCapacity 40 lvl := by
  cases lvl <;> decide +kernel

/-- A payload within the capacity fits with its header (44_bitbuf.md R121). -/
theorem fits_of_le_tableCapacity {v len : Nat} {lvl : Level} (h1 : 1 ≤ v) (h2 : v ≤ 40) (h : len ≤ tableCapacity v lvl) :
    4 + lenBits v + 8 * len ≤ 8 * tableData v lvl := by
  have hheader := header_le_tableData lvl v h2 h1
  unfold tableCapacity at h
  omega

end Sys2Proof.Machine

/-! SUPPORT. The choice of the version, and the command `VSEL` (43_version_select.md R111, R112). -/

namespace Sys2Proof.Machine

/-! ## The scan of the versions -/

/-- One version of the scan: taken where it holds the payload, else passed over. -/
theorem firstFit_cons {len v : Nat} {lvl : Level} (h1 : 1 ≤ v) (h2 : v ≤ 40) (vs : List Nat) :
    firstFit len lvl (v :: vs) = if len ≤ tableCapacity v lvl then .ok v else firstFit len lvl vs := by
  rw [firstFit, capacity_eq_table lvl h1 h2]
  rfl

/-- Where some version of the list holds the payload, one is chosen, and it does. -/
theorem firstFit_ok {len : Nat} {lvl : Level} : ∀ {vs : List Nat}, (∀ v ∈ vs, 1 ≤ v ∧ v ≤ 40) →
    (∃ v ∈ vs, len ≤ tableCapacity v lvl) → ∃ v ∈ vs, firstFit len lvl vs = .ok v ∧ len ≤ tableCapacity v lvl
  | [], _, h => by simp at h
  | v :: vs, hvs, h => by
    obtain ⟨h1, h2⟩ := hvs v List.mem_cons_self
    rw [firstFit_cons h1 h2]
    by_cases hv : len ≤ tableCapacity v lvl
    · exact ⟨v, List.mem_cons_self, if_pos hv, hv⟩
    · obtain ⟨u, hu, hok, hcap⟩ :=
        firstFit_ok (fun u hu => hvs u (List.mem_cons_of_mem v hu)) (by simpa [hv] using h)
      exact ⟨u, List.mem_cons_of_mem v hu, by rw [if_neg hv, hok], hcap⟩

/-- Where no version of the list holds the payload, the scan reports it. -/
theorem firstFit_error {len : Nat} {lvl : Level} : ∀ {vs : List Nat}, (∀ v ∈ vs, 1 ≤ v ∧ v ≤ 40) →
    (∀ v ∈ vs, tableCapacity v lvl < len) → firstFit len lvl vs = .error .capacityExceeded
  | [], _, _ => rfl
  | v :: vs, hvs, h => by
    obtain ⟨h1, h2⟩ := hvs v List.mem_cons_self
    rw [firstFit_cons h1 h2, if_neg (Nat.not_le.2 (h v List.mem_cons_self))]
    exact firstFit_error (fun u hu => hvs u (List.mem_cons_of_mem v hu)) fun u hu => h u (List.mem_cons_of_mem v hu)

theorem mem_versions {v : Nat} : v ∈ List.range' 1 40 ↔ 1 ≤ v ∧ v ≤ 40 := by
  rw [List.mem_range'_1]
  omega

theorem tooLong_iff {lvl : Level} {s : State} : TooLong lvl s ↔ tableCapacity 40 lvl < s.payload.length := by
  simp [TooLong, capacity_eq_table lvl (v := 40) (by decide) (by decide)]

theorem selectVersion_ok {lvl : Level} {s : State} (h : ¬ TooLong lvl s) :
    ∃ v, selectVersion s.payload.length lvl = .ok v ∧ 1 ≤ v ∧ v ≤ 40 ∧ s.payload.length ≤ tableCapacity v lvl := by
  rw [tooLong_iff, Nat.not_lt] at h
  obtain ⟨v, hv, hok, hcap⟩ := firstFit_ok (fun _ => mem_versions.1) ⟨40, mem_versions.2 (by decide), h⟩
  obtain ⟨h1, h2⟩ := mem_versions.1 hv
  exact ⟨v, hok, h1, h2, hcap⟩

theorem selectVersion_of_tooLong {lvl : Level} {s : State} (h : TooLong lvl s) :
    selectVersion s.payload.length lvl = .error .capacityExceeded := by
  refine firstFit_error (fun _ => mem_versions.1) fun v hv => ?_
  exact (tableCapacity_le_forty lvl v (mem_versions.1 hv).2).trans_lt (tooLong_iff.1 h)

/-! ## `VSEL` -/

theorem exec_vsel_of_select {lvl : Level} {s : State} {v : Nat} (hs : Accepting s)
    (hv : selectVersion s.payload.length lvl = .ok v) :
    exec (.vsel lvl) s = .next { s with
      ver := BitVec.ofNat 6 v, ecl := lvl, stage := .none, n := 0#8, mx := [], res := BitVec.ofNat 32 v, err := .ok } := by
  simp only [exec, execVsel, hv, ok_bind, pure_eq_ok, command_ok hs]
  rfl

end Sys2Proof.Machine

/-! SUPPORT. The length of the encoded data, and the command `BBENC` (44_bitbuf.md R121, R124). -/

namespace Sys2Proof.Machine

/-! ## The length of each part -/

theorem headerAndPayload_length (payload : List Byte) (v : Nat) :
    (headerAndPayload payload v).length = 4 + lenBits v + 8 * payload.length := by
  simp [headerAndPayload, putBits, Nat.mul_comm, Nat.add_assoc]

/-- The terminator is appended only where it fits. -/
theorem terminate_length_le {bb : List Bool} {cap : Nat} (h : bb.length ≤ cap) : (terminate bb cap).length ≤ cap := by
  unfold terminate
  split
  · simpa [putBits]
  · exact h

/-- The padded length is the next multiple of 8, so it stays within a capacity of whole bytes. -/
theorem alignToByte_length {bb : List Bool} {d : Nat} (h : bb.length ≤ 8 * d) :
    (alignToByte bb).length % 8 = 0 ∧ (alignToByte bb).length ≤ 8 * d := by
  simp only [alignToByte, List.length_append, List.length_replicate]
  omega

/-- Whole pad bytes fill a byte-aligned buffer up exactly. -/
theorem padToCapacity_length {bb : List Bool} {d : Nat} (h8 : bb.length % 8 = 0) (h : bb.length ≤ 8 * d) :
    (padToCapacity bb (8 * d)).length = 8 * d := by
  simp only [padToCapacity, List.length_append, List.length_flatMap, msbBits_length, List.map_const', List.length_range,
    List.sum_replicate, smul_eq_mul]
  omega

/-- A payload that fits is encoded into `8 × DataCw` bits. -/
theorem encodeData_ok {payload : List Byte} {v d : Nat} {lvl : Level} (hd : dataCw v lvl = .ok d)
    (hfit : 4 + lenBits v + 8 * payload.length ≤ 8 * d) :
    ∃ bits, encodeData payload v lvl = .ok bits ∧ bits.length = 8 * d := by
  have hheader : (headerAndPayload payload v).length ≤ 8 * d := by rwa [headerAndPayload_length]
  obtain ⟨h8, hle⟩ := alignToByte_length (terminate_length_le hheader)
  refine ⟨_, ?_, padToCapacity_length h8 hle⟩
  simp [encodeData, hd, Nat.not_lt.2 hfit]

/-! ## `BBENC` -/

theorem exec_bbenc_of_encode {s : State} {bits : List Bool} (hs : Accepting s) (hver : s.ver ≠ 0#6)
    (hbits : encodeData s.payload s.ver.toNat s.ecl = .ok bits) :
    exec .bbenc s = .next { s with bb := bits, err := .ok } := by
  simp only [exec, execBbenc, requireVersion_eq_ok (u := ()) |>.2 hver, hbits, ok_bind, pure_eq_ok, command_ok hs]
  rfl

end Sys2Proof.Machine

/-! SUPPORT. The final codewords, and the command `SPLIT` (45_block_split.md R135 to R138). -/

namespace Sys2Proof.Machine

/-! ## The round-robin order -/

theorem maxLength_eq_foldr (blks : List (List Byte)) : maxLength blks = (blks.map List.length).foldr max 0 := by
  rw [maxLength, ← List.foldl_eq_foldr, List.foldl_map]

theorem length_le_maxLength {blks : List (List Byte)} {b : List Byte} (h : b ∈ blks) : b.length ≤ maxLength blks := by
  rw [maxLength_eq_foldr]
  exact List.le_max_of_le' 0 (List.mem_map_of_mem h) le_rfl

/-- The codewords of one block, taken at the first `m` indices. -/
theorem flatMap_getElem?_toList (b : List Byte) (m : Nat) : (List.range m).flatMap (fun i => b[i]?.toList) = b.take m := by
  induction m with
  | zero => rfl
  | succ m ih => simp [List.range_succ, ih, List.take_add_one]

/-- Taken index by index, the codewords of all blocks are those of the blocks one after another, in another order. -/
theorem turns_perm_flatten {m : Nat} : ∀ {blks : List (List Byte)}, (∀ b ∈ blks, b.length ≤ m) →
    ((List.range m).flatMap (fun i => blks.filterMap (fun b => b[i]?))).Perm blks.flatten
  | [], _ => by simp
  | b :: blks, h => by
    have hturn (i : Nat) : (b :: blks).filterMap (fun b => b[i]?) = b[i]?.toList ++ blks.filterMap (fun b => b[i]?) := by
      cases hb : b[i]? <;> simp [hb]
    have hrest := turns_perm_flatten fun c hc => h c (List.mem_cons_of_mem b hc)
    simp only [hturn, List.flatten_cons]
    refine (List.flatMap_append_perm _ _ _).symm.trans ?_
    rw [flatMap_getElem?_toList, List.take_of_length_le (h b List.mem_cons_self)]
    exact hrest.append_left b

theorem interleaved_perm_flatten (blks : List (List Byte)) : (interleaved blks).Perm blks.flatten :=
  turns_perm_flatten fun _ => length_le_maxLength

/-- Either order has every codeword of the blocks once. -/
theorem assemble_perm (mode : Interleave) (dblk ecblk : List (List Byte)) :
    (assemble mode dblk ecblk).Perm (assembleSequential dblk ecblk) := by
  cases mode with
  | sequential => exact .refl _
  | roundRobin => exact (interleaved_perm_flatten dblk).append (interleaved_perm_flatten ecblk)

/-! ## The blocks -/

theorem bytesOfBits_length : ∀ bits : List Bool, (bytesOfBits bits).length = bits.length / 8
  | _ :: _ :: _ :: _ :: _ :: _ :: _ :: _ :: rest => by
    rw [bytesOfBits, List.length_cons, bytesOfBits_length rest]
    exact (Nat.add_div_right rest.length (by decide)).symm
  | [] | [_] | [_, _] | [_, _, _] | [_, _, _, _] | [_, _, _, _, _] | [_, _, _, _, _, _] | [_, _, _, _, _, _, _] => by
    simp [bytesOfBits]

/-- Data that fill the blocks exactly are split without a fault, into as many codewords as the blocks have. -/
theorem splitBlocks_ok : ∀ {bs : List Block} {dcw : List Byte}, (∀ b ∈ bs, b.data ≤ b.total ∧ b.total - b.data ≤ 254) →
    dcw.length = (bs.map Block.data).sum →
    ∃ parts, splitBlocks dcw bs = .ok parts ∧
      (assembleSequential parts.1 parts.2).length = (bs.map Block.total).sum
  | [], _, _, _ => ⟨_, rfl, rfl⟩
  | b :: bs, dcw, hbs, hlen => by
    obtain ⟨hle, hec⟩ := hbs b List.mem_cons_self
    obtain ⟨ec, hencode, hparity⟩ := rsEncode_ok hec (dcw.take b.data)
    rw [List.map_cons, List.sum_cons] at hlen
    have hdrop : (dcw.drop b.data).length = (bs.map Block.data).sum := by
      rw [List.length_drop]
      omega
    obtain ⟨rest, hrest, htotal⟩ := splitBlocks_ok (fun c hc => hbs c (List.mem_cons_of_mem b hc)) hdrop
    refine ⟨_, by rw [splitBlocks, hencode, ok_bind, hrest, ok_bind, pure_eq_ok], ?_⟩
    simp only [assembleSequential, List.length_append, List.flatten_cons, List.length_take, List.map_cons,
      List.sum_cons] at htotal ⊢
    omega

/-- A full bit buffer of a version and level becomes `TotalCw` codewords, in either order. -/
theorem finalCodewords_ok (cfg : Config) {bits : List Bool} {v : Nat} {lvl : Level} (h1 : 1 ≤ v) (h2 : v ≤ 40)
    (hbits : bits.length = 8 * tableData v lvl) :
    ∃ cw, finalCodewords cfg bits v lvl = .ok cw ∧ cw.length = tableTotal v lvl := by
  have hlen : (bytesOfBits bits).length = tableData v lvl := by
    rw [bytesOfBits_length]
    omega
  obtain ⟨parts, hparts, htotal⟩ := splitBlocks_ok (tableBlocks_ec_le lvl v h2) hlen
  refine ⟨assemble cfg.interleave parts.1 parts.2, ?_, (assemble_perm _ _ _).length_eq.trans htotal⟩
  rw [finalCodewords, blocks_eq_table lvl h1 h2, ok_bind, hparts, ok_bind, pure_eq_ok]

/-! ## `SPLIT` -/

theorem exec_split_of_finalCodewords {s : State} {d : Nat} {cw : List Byte} (hs : Accepting s) (hver : s.ver ≠ 0#6)
    (hd : dataCw s.ver.toNat s.ecl = .ok d) (hlen : s.bb.length = 8 * d)
    (hcw : finalCodewords s.cfg s.bb s.ver.toNat s.ecl = .ok cw) :
    exec .split s = .next { s with cw := cw, err := .ok } := by
  simp only [exec, execSplit, requireVersion_eq_ok (u := ()) |>.2 hver, hd, hlen, hcw, ok_bind, pure_eq_ok, command_ok hs,
    ne_eq, not_true_eq_false, if_false]
  rfl

end Sys2Proof.Machine

/-! SUPPORT. The command `MXBEST` (47_mask_eval.md R184), and `GEN` against the four commands it stands for
(49_generate.md R203). -/

namespace Sys2Proof.Machine

/-! ## `MXBEST` -/

theorem exec_mxbest_of_runBestMask {s t : State} (hs : Accepting s) (hver : s.ver ≠ 0#6) (ht : runBestMask s = .ok t) :
    exec .mxbest s = .next { t with err := .ok } := by
  simp only [exec, execMxbest, requireVersion_eq_ok (u := ()) |>.2 hver, ht, ok_bind, command_ok hs]
  rfl

/-- The search answers for a selected version, and passes through what it does not write. -/
theorem runBestMask_answers {s : State} (hver : VersionSelected s) :
    ∃ t, runBestMask s = .ok t ∧ t.n.toNat = 4 * s.ver.toNat + 17 ∧ t.ver = s.ver ∧ t.cw = s.cw ∧ t.res = s.res := by
  obtain ⟨pos, -, ht⟩ := runBestMask_ok hver.1 hver.2
  exact ⟨_, ht, moduleCount_toNat hver.2, rfl, rfl, rfl⟩

/-- The search reads neither the old matrix nor `RES` and `ERR`, and passes these two through. -/
theorem runBestMask_of_restart {s t : State} (ht : runBestMask s = .ok t) (stage : Stage) (n : BitVec 8) (mx : Grid)
    (res : Word) (err : Status) :
    runBestMask { s with stage := stage, n := n, mx := mx, res := res, err := err } =
      .ok { t with res := res, err := err } := by
  rw [runBestMask, bind_eq_ok] at ht
  obtain ⟨pos, hpos, ht⟩ := ht
  cases ht
  simp only [runBestMask, hpos, ok_bind, pure_eq_ok]

/-! ## `GEN` -/

/-- `GEN` is a choice of the version, an encoding, a split and a search, one after another. -/
theorem exec_gen (lvl : Level) (s : State) :
    exec (.gen lvl) s = command s (selectVersion s.payload.length lvl >>= fun v =>
      encodeData s.payload v lvl >>= fun bb => finalCodewords s.cfg bb v lvl >>= fun cw =>
        runBestMask { s with ver := BitVec.ofNat 6 v, ecl := lvl, bb := bb, cw := cw }) := rfl

theorem exec_gen_of_tooLong {lvl : Level} {s : State} (hs : Accepting s) (h : TooLong lvl s) :
    exec (.gen lvl) s = turnedAway .capacityExceeded s := by
  rw [exec_gen, selectVersion_of_tooLong h, error_bind, command_error hs, raise_of_recoverable rfl]

/-- A payload within the version-40 capacity passes the first three parts, and fills the version's data and total codewords. -/
theorem gen_parts_ok {lvl : Level} {s : State} (h : ¬ TooLong lvl s) :
    ∃ (ver : BitVec 6) (bits : List Bool) (cw : List Byte), 1 ≤ ver.toNat ∧ ver.toNat ≤ 40 ∧
      selectVersion s.payload.length lvl = .ok ver.toNat ∧
      encodeData s.payload ver.toNat lvl = .ok bits ∧ bits.length = 8 * tableData ver.toNat lvl ∧
      finalCodewords s.cfg bits ver.toNat lvl = .ok cw ∧ cw.length = tableTotal ver.toNat lvl := by
  obtain ⟨v, hselect, h1, h2, hcap⟩ := selectVersion_ok h
  obtain ⟨bits, hencode, hfull⟩ := encodeData_ok (dataCw_eq_table lvl h1 h2) (fits_of_le_tableCapacity h1 h2 hcap)
  obtain ⟨cw, hcw, htotal⟩ := finalCodewords_ok s.cfg h1 h2 hfull
  have hver : (BitVec.ofNat 6 v).toNat = v := Nat.mod_eq_of_lt (by omega)
  refine ⟨BitVec.ofNat 6 v, bits, cw, ?_⟩
  rw [hver]
  exact ⟨h1, h2, hselect, hencode, hfull, hcw, htotal⟩

/-- Settles O53: `GEN` and the four commands choose the same version, bits and codewords, and search from states that differ
in nothing the search reads; it passes `RES` through, which the sequence has written and `GEN` has not. -/
theorem genEqualsTheFourCommandSequence : Obligations.GenEqualsTheFourCommandSequence := by
  refine ⟨fun lvl s hs hfits => ?_, fun lvl s hs hlong => exec_gen_of_tooLong hs hlong, encodedAs_gen⟩
  obtain ⟨ver, bits, cw, h1, h2, hselect, hencode, hfull, hcw, htotal⟩ := gen_parts_ok hfits
  have hround : BitVec.ofNat 6 ver.toNat = ver := by simp
  have hne : ver ≠ 0#6 := by bv_omega
  have hvsel := exec_vsel_of_select hs hselect
  have hgen := exec_gen lvl s
  rw [hround] at hvsel
  rw [hselect, ok_bind, hencode, ok_bind, hcw, ok_bind, hround] at hgen
  obtain ⟨t, ht, hn, htver, htcw, htres⟩ :=
    runBestMask_answers (s := { s with ver := ver, ecl := lvl, bb := bits, cw := cw }) ⟨h1, h2⟩
  refine ⟨_, _, _, _, hvsel, exec_bbenc_of_encode hs hne hencode,
    exec_split_of_finalCodewords hs hne (dataCw_eq_table lvl h1 h2) hfull hcw,
    exec_mxbest_of_runBestMask hs hne (runBestMask_of_restart ht .none 0#8 [] (BitVec.ofNat 32 ver.toNat) .ok),
    rfl, rfl, rfl, rfl, ?_, ?_, ?_⟩
  · rw [hgen, ht, command_ok hs, ← htres]
    rfl
  · exact htver.symm ▸ hn
  · rw [htver, htcw, totalCw_eq_table lvl h1 h2, htotal]

end Sys2Proof.Machine

/-! SUPPORT. The outcome of a command: it raises one error, or it completes; and the commands neither read `ERR` nor write
`FAULT` on their own (60_exceptions.md R212, R214). -/

namespace Sys2Proof.Machine

/-! ## Raising an error -/

/-- Presented in `s`, the command ends at the `raise` of `e`. -/
abbrev Raises (i : Instr) (s : State) (e : ErrorCode) : Prop := exec i s = .next (raise e s)

theorem command_raises_iff {s : State} (hs : Accepting s) {body : Except ErrorCode State} {e : ErrorCode} :
    command s body = .next (raise e s) ↔ body = .error e := by
  refine ⟨fun h => ?_, fun h => by rw [h, command_error hs]⟩
  obtain ⟨hf, -⟩ | ⟨-, u, -, hu⟩ | ⟨-, e', hbody, he'⟩ := command_cases h
  · simp [hs] at hf
  · exact nomatch congrArg State.err hu
  · have herr : Status.failed e = .failed e' := congrArg State.err he'
    cases herr
    exact hbody

/-- An accepted command ends with `ERR = 0` or with the effect of one `raise`. -/
theorem exec_completes_or_raises {i : Instr} {s t : State} (hs : Accepting s) (h : exec i s = .next t) :
    t.err = .ok ∨ ∃ e, t = raise e s := by
  obtain ⟨body, hbody⟩ := exec_is_command i s
  obtain ⟨hf, -⟩ | ⟨-, u, -, rfl⟩ | ⟨-, e, -, rfl⟩ := command_cases (hbody.symm.trans h)
  · simp [hs] at hf
  · exact .inl rfl
  · exact .inr ⟨e, rfl⟩

/-- An error stands in `ERR` after a command only because the command raised it. -/
theorem eq_raise_of_failed {i : Instr} {s t : State} {e : ErrorCode} (hs : Accepting s) (h : exec i s = .next t)
    (he : t.err = .failed e) : t = raise e s := by
  obtain hok | ⟨e', rfl⟩ := exec_completes_or_raises hs h
  · exact nomatch hok.symm.trans he
  · cases he
    rfl

theorem raises_of_failed {i : Instr} {s t : State} {e : ErrorCode} (hs : Accepting s) (h : exec i s = .next t)
    (he : t.err = .failed e) : Raises i s e := h.trans (by rw [eq_raise_of_failed hs h he])

theorem completes_of_not_raises {i : Instr} {s : State} (hs : Accepting s) (h : ∀ e, ¬ Raises i s e) :
    ∃ t, exec i s = .next t ∧ t.err = .ok := by
  obtain ⟨t, ht⟩ := exec_answers i s
  obtain hok | ⟨e, rfl⟩ := exec_completes_or_raises hs ht
  · exact ⟨t, ht, hok⟩
  · exact absurd ht (h e)

theorem exec_of_fault {s : State} (hs : s.fault = true) (i : Instr) : exec i s = .next s := by
  obtain ⟨body, h⟩ := exec_is_command i s
  rw [h, command_of_fault hs]

/-! ## The effect of a raised error -/

theorem Raises.turnedAway {i : Instr} {s : State} {e : ErrorCode} (h : Raises i s e) (he : isFatal e = false) :
    exec i s = turnedAway e s := by rw [h, raise_of_recoverable he]

theorem Raises.stuckWith {i : Instr} {s : State} {e : ErrorCode} (h : Raises i s e) (he : isFatal e = true) :
    exec i s = stuckWith e s := by rw [h, raise_of_fatal he]

/-- The codes of the recoverable errors are 0x01 to 0x04 (60_exceptions.md R210). -/
theorem errorCode_of_recoverable {e : ErrorCode} (h : isFatal e = false) :
    1 ≤ (errorCode e).toNat ∧ (errorCode e).toNat ≤ 4 := by
  revert h
  cases e <;> decide

/-- The codes of the fatal errors are 0x80 and 0x81 (60_exceptions.md R210). -/
theorem errorCode_of_fatal {e : ErrorCode} (h : isFatal e = true) : errorCode e = 0x80#8 ∨ errorCode e = 0x81#8 := by
  revert h
  cases e <;> decide

/-! ## A check that refuses -/

/-- A check of a rule that raises `e` where `c` holds. -/
def refuseIf (c : Prop) [Decidable c] (e : ErrorCode) : Except ErrorCode Unit := if c then .error e else .ok ()

theorem refuseIf_eq_ok {c : Prop} [Decidable c] {e : ErrorCode} {u : Unit} : refuseIf c e = .ok u ↔ ¬ c := by
  unfold refuseIf
  split <;> simp_all

theorem refuseIf_eq_error {c : Prop} [Decidable c] {e e' : ErrorCode} : refuseIf c e = .error e' ↔ e' = e ∧ c := by
  unfold refuseIf
  split <;> simp_all [eq_comm]

/-! ## The commands as checks and an update -/

theorem exec_pmul (s : State) :
    exec .pmul s = command s (refuseIf (s.pa.length > 0 ∧ s.pb.length > 0 ∧ s.pa.length + s.pb.length - 1 > lenMax)
      .illegalCommand >>= fun _ => polyMul s.pa s.pb >>= fun p => .ok (writePoly .pr p s)) := by
  unfold refuseIf exec execPmul
  dsimp only
  split <;> rfl

theorem exec_pmod (s : State) :
    exec .pmod s = command s (polyMod s.pa s.pb >>= fun p => .ok (writePoly .pr p s)) := rfl

theorem exec_rsenc (ec : Byte) (s : State) :
    exec (.rsenc ec) s = command s (refuseIf (s.db.length + ec.toNat > lenMax) .illegalCommand >>= fun _ =>
      rsEncode s.db ec.toNat >>= fun e => .ok { s with ecb := e }) := by
  unfold refuseIf exec execRsenc
  dsimp only
  split <;> rfl

theorem exec_vsel (lvl : Level) (s : State) :
    exec (.vsel lvl) s = command s (selectVersion s.payload.length lvl >>= fun v =>
      .ok (setRes (resOfNat v) (discardMatrix { s with ver := BitVec.ofNat 6 v, ecl := lvl }))) := rfl

theorem exec_bbenc (s : State) :
    exec .bbenc s = command s (requireVersion s >>= fun _ => encodeData s.payload s.ver.toNat s.ecl >>= fun bb =>
      .ok { s with bb := bb }) := rfl

theorem exec_split (s : State) :
    exec .split s = command s (requireVersion s >>= fun _ => dataCw s.ver.toNat s.ecl >>= fun d =>
      refuseIf (s.bb.length ≠ 8 * d) .illegalCommand >>= fun _ =>
        finalCodewords s.cfg s.bb s.ver.toNat s.ecl >>= fun cw => .ok { s with cw := cw }) := by
  unfold exec execSplit
  dsimp only
  congr 1
  refine bind_congr fun _ => bind_congr fun d => ?_
  unfold refuseIf
  split <;> rfl

theorem exec_isdark (row col : Byte) (s : State) :
    exec (.isdark row col) s = command s (requireStage [.final] s >>= fun _ =>
      refuseIf (row.toNat ≥ s.n.toNat ∨ col.toNat ≥ s.n.toNat) .malformedMatrixAccess >>= fun _ =>
        .ok (setRes (resOfBool (isDark (getCell s.mx row.toNat col.toNat))) s)) := by
  unfold exec execIsdark
  dsimp only
  congr 1
  refine bind_congr fun _ => ?_
  unfold refuseIf
  split <;> rfl

theorem exec_mxbest (s : State) : exec .mxbest s = command s (requireVersion s >>= fun _ => runBestMask s) := rfl

/-! ## Bodies that ignore the status -/

/-- The body of a command does not read `ERR`, and what it answers has the `FAULT` it found. -/
structure IgnoresStatus (body : State → Except ErrorCode State) : Prop where
  keepsFault : ∀ s u, body s = .ok u → u.fault = s.fault
  blind : ∀ s before, (body { s with err := before }).map succeed = (body s).map succeed

/-- A body that cannot fail. -/
theorem IgnoresStatus.update {f : State → State} (hfault : ∀ s, (f s).fault = s.fault := by exact fun _ => rfl)
    (herr : ∀ s before, succeed (f { s with err := before }) = succeed (f s) := by exact fun _ _ => rfl) :
    IgnoresStatus fun s => .ok (f s) where
  keepsFault s u h := by
    cases h
    exact hfault s
  blind s before := congrArg Except.ok (herr s before)

/-- A body that begins with a check or a lookup. -/
theorem IgnoresStatus.check {α : Type} {x : State → Except ErrorCode α} {f : α → State → Except ErrorCode State}
    (hf : ∀ a, IgnoresStatus (f a)) (hx : ∀ s before, x { s with err := before } = x s := by exact fun _ _ => rfl) :
    IgnoresStatus fun s => x s >>= fun a => f a s where
  keepsFault s u h := by
    obtain ⟨a, -, ha⟩ := bind_eq_ok.1 h
    exact (hf a).keepsFault s u ha
  blind s before := by
    simp only [hx]
    cases x s with
    | error e => rfl
    | ok a => exact (hf a).blind s before

theorem ignoresStatus_runBestMask : IgnoresStatus runBestMask := .check fun _ => .update

/-- A command answers in the same way, and with the same next state, whatever `ERR` held. -/
theorem command_of_ignoresStatus {body : State → Except ErrorCode State} (hbody : IgnoresStatus body) {s : State}
    (hs : Accepting s) (before : Status) :
    command { s with err := before } (body { s with err := before }) = command s (body s) := by
  have hblind := hbody.blind s before
  have hs' : Accepting { s with err := before } := hs
  cases h : body s with
  | ok u =>
    cases h' : body { s with err := before } with
    | error e =>
      rw [h, h'] at hblind
      cases hblind
    | ok u' =>
      rw [h, h'] at hblind
      rw [command_ok hs, command_ok hs']
      exact congrArg _ (Except.ok.inj hblind)
  | error e =>
    cases h' : body { s with err := before } with
    | ok u' =>
      rw [h, h'] at hblind
      cases hblind
    | error e' =>
      rw [h, h'] at hblind
      cases hblind
      rw [command_error hs, command_error hs']
      rfl

/-- Every command is a number of checks and lookups, none of which reads `ERR`, and one update, which leaves `FAULT` alone. -/
theorem exec_ignoresStatus (i : Instr) : ∃ body, (∀ s, exec i s = command s (body s)) ∧ IgnoresStatus body := by
  cases i with
  | nop | gexp _ | dbrst | bbrst | modcnt | plrst => exact ⟨_, fun _ => rfl, .update⟩
  | pclr r =>
    refine ⟨_, fun _ => rfl, .update ?_ ?_⟩ <;> cases r <;> intros <;> rfl
  | ppush r v =>
    refine ⟨_, exec_ppush r v, .check (fun _ => .update ?_ ?_) ?_⟩ <;> cases r <;> intros <;> rfl
  | glog _ | pmod | rsgen _ | dbpush _ | plpush _ | vsel _ | setvl _ _ | mxrst | mxrsv | mxfin | maskq _ _ _
  | mxpen | bchfmt _ | bchver _ => exact ⟨_, fun _ => rfl, .check fun _ => .update⟩
  | bbput _ _ | bbenc | mxpat | mxmap _ => exact ⟨_, fun _ => rfl, .check fun _ => .check fun _ => .update⟩
  | pmul => exact ⟨_, exec_pmul, .check fun _ => .check fun _ => .update⟩
  | rsenc ec => exact ⟨_, exec_rsenc ec, .check fun _ => .check fun _ => .update⟩
  | isdark row col => exact ⟨_, exec_isdark row col, .check fun _ => .check fun _ => .update⟩
  | split => exact ⟨_, exec_split, .check fun _ => .check fun _ => .check fun _ => .check fun _ => .update⟩
  | mxbest => exact ⟨_, exec_mxbest, .check fun _ => ignoresStatus_runBestMask⟩
  | gen lvl =>
    exact ⟨_, exec_gen lvl, .check fun _ => .check fun _ => .check fun _ => .check fun _ => .update⟩

theorem exec_of_err (i : Instr) {s : State} (hs : Accepting s) (before : Status) :
    exec i { s with err := before } = exec i s := by
  obtain ⟨body, hexec, hbody⟩ := exec_ignoresStatus i
  rw [hexec, hexec]
  exact command_of_ignoresStatus hbody hs before

/-- A command that completes leaves the core accepting. -/
theorem accepting_of_completes {i : Instr} {s t : State} (hs : Accepting s) (h : exec i s = .next t) (ht : t.err = .ok) :
    Accepting t := by
  obtain ⟨body, hexec, hbody⟩ := exec_ignoresStatus i
  obtain ⟨hf, -⟩ | ⟨-, u, hu, rfl⟩ | ⟨-, e, -, rfl⟩ := command_cases ((hexec s).symm.trans h)
  · simp [hs] at hf
  · exact (hbody.keepsFault s u hu).trans hs
  · exact nomatch ht

/-! ## A presented word -/

theorem acceptWord_of_decode {w : Word} {i : Instr} (h : decode w = .ok i) {s : State} (hs : Accepting s) :
    acceptWord exec w s = exec i s := by simp [acceptWord, hs, h]

theorem acceptWord_of_fault {s : State} (hs : s.fault = true) (w : Word) : acceptWord exec w s = .next s := if_pos hs

/-- A word raises one error and has no other effect, or it completes and leaves the core accepting. -/
theorem acceptWord_cases {w : Word} {s t : State} (hs : Accepting s) (h : acceptWord exec w s = .next t) :
    (t.err = .ok ∧ Accepting t) ∨ ∃ e, t = raise e s := by
  cases hd : decode w with
  | error _ =>
    rw [acceptWord_of_decode_error hd hs] at h
    cases h
    exact .inr ⟨.illegalCommand, (raise_of_recoverable rfl s).symm⟩
  | ok i =>
    rw [acceptWord_of_decode hd hs] at h
    exact (exec_completes_or_raises hs h).imp_left fun ht => ⟨ht, accepting_of_completes hs h ht⟩

theorem acceptWord_eq_raise_of_failed {w : Word} {s t : State} {e : ErrorCode} (hs : Accepting s)
    (h : acceptWord exec w s = .next t) (he : t.err = .failed e) : t = raise e s := by
  obtain ⟨hok, -⟩ | ⟨e', rfl⟩ := acceptWord_cases hs h
  · exact nomatch hok.symm.trans he
  · cases he
    rfl

theorem acceptWord_of_err (w : Word) {s : State} (hs : Accepting s) (before : Status) :
    acceptWord exec w { s with err := before } = acceptWord exec w s := by
  have hs' : Accepting { s with err := before } := hs
  cases hd : decode w with
  | error _ => rw [acceptWord_of_decode_error hd hs, acceptWord_of_decode_error hd hs']
  | ok i => rw [acceptWord_of_decode hd hs, acceptWord_of_decode hd hs', exec_of_err i hs]

/-- Settles O9: an error comes from one `raise`, which for a recoverable one writes `ERR` alone, and no body reads `ERR`. -/
theorem recoverableErrorWritesErrAlone : Obligations.RecoverableErrorWritesErrAlone := by
  refine ⟨fun w s t hs h => ⟨fun e he hrec => ?_, fun hno => ?_⟩, fun w s before hs => acceptWord_of_err w hs before⟩
  · have ht : t = { s with err := .failed e } := by
      rw [acceptWord_eq_raise_of_failed hs h he, raise_of_recoverable hrec]
    rw [he]
    exact ⟨ht, ht ▸ hs, errorCode_of_recoverable hrec⟩
  · obtain ⟨hok, hacc⟩ | ⟨e, rfl⟩ := acceptWord_cases hs h
    · exact ⟨hok, congrArg statusCode hok, hacc⟩
    · exact absurd rfl (hno e)

/-- A step of a stuck core takes the oldest event off the port and no more, unless that event is a reset. -/
theorem step_of_fault {s t : State} (hs : s.fault = true) (h : step s = .next t) :
    (t.fault = true ∧ t = { s with port := t.port }) ∨ ∃ rest, s.port = .reset :: rest ∧ t.fault = false := by
  obtain ⟨-, rfl⟩ | ⟨rest, hp, rfl⟩ | ⟨_, rest, -, -, rfl⟩ | ⟨_, _, _, -, hf, -⟩ | ⟨_, _, _, -, hf, -⟩ := step_cases h
  · exact .inl ⟨hs, rfl⟩
  · exact .inr ⟨rest, hp, rfl⟩
  · exact .inl ⟨hs, rfl⟩
  · simp [hs] at hf
  · simp [hs] at hf

/-- Settles O10: an error comes from one `raise`, and a stuck core discards whatever is not a reset. -/
theorem fatalErrorStopsTheCoreUntilReset : Obligations.FatalErrorStopsTheCoreUntilReset := by
  refine ⟨fun w s t e hs h he hfatal => ⟨?_, ?_⟩, fun w s hs => acceptWord_of_fault hs w, fun i s hs => exec_of_fault hs i,
    fun s t hs h => step_of_fault hs h⟩
  · rw [acceptWord_eq_raise_of_failed hs h he, raise_of_fatal hfatal]
  · rw [he]
    exact errorCode_of_fatal hfatal

end Sys2Proof.Machine

/-! SUPPORT. Which command raises which error, and on exactly which condition (60_exceptions.md R211, R217 to R219). -/

namespace Sys2Proof.Machine

/-! ## When an operation fails -/

/-- A sequence that ends in an update fails where what stands before the update fails. -/
theorem bind_update_eq_error {α β : Type} {x : Except ErrorCode α} {f : α → β} {e : ErrorCode} :
    (x >>= fun a => .ok (f a)) = .error e ↔ x = .error e := by
  cases x <;> simp

theorem requireVersion_eq_error {s : State} {e : ErrorCode} :
    requireVersion s = .error e ↔ e = .illegalCommand ∧ s.ver = 0#6 := refuseIf_eq_error

theorem requireStage_eq_error {allowed : List Stage} {s : State} {e : ErrorCode} :
    requireStage allowed s = .error e ↔ e = .illegalCommand ∧ s.stage ∉ allowed := by
  unfold requireStage
  split <;> simp_all [eq_comm]

theorem selectVersion_eq_error {lvl : Level} {s : State} {e : ErrorCode} :
    selectVersion s.payload.length lvl = .error e ↔ e = .capacityExceeded ∧ TooLong lvl s := by
  by_cases h : TooLong lvl s
  · rw [selectVersion_of_tooLong h]
    simp [h, eq_comm]
  · obtain ⟨v, hv, -⟩ := selectVersion_ok h
    rw [hv]
    simp [h]

theorem encodeData_eq_error {payload : List Byte} {v d : Nat} {lvl : Level} {e : ErrorCode} (hd : dataCw v lvl = .ok d) :
    encodeData payload v lvl = .error e ↔ e = .overflow ∧ 8 * d < 4 + lenBits v + 8 * payload.length := by
  by_cases h : 8 * d < 4 + lenBits v + 8 * payload.length
  · have hover : encodeData payload v lvl = .error .overflow := by
      simp only [encodeData, hd, ok_bind, gt_iff_lt, if_pos h]
      rfl
    rw [hover]
    simp [h, eq_comm]
  · obtain ⟨bits, hbits, -⟩ := encodeData_ok hd (Nat.not_lt.1 h)
    rw [hbits]
    simp [h]

theorem not_noZero_iff {p : Poly} : ¬ NoZero p ↔ 0#8 ∈ p := by simp [NoZero]

theorem polyMul_error {a b : Poly} {e : ErrorCode} (h : polyMul a b = .error e) : e = .glogZero := by
  unfold polyMul at h
  split at h
  · cases h
  · exact mulRows_error (bind_update_eq_error.1 h)

/-- A product is looked up pair by pair, so a zero coefficient in either factor faults, unless the other one is empty. -/
theorem polyMul_eq_error {a b : Poly} {e : ErrorCode} :
    polyMul a b = .error e ↔ e = .glogZero ∧ a ≠ [] ∧ b ≠ [] ∧ (0#8 ∈ a ∨ 0#8 ∈ b) := by
  constructor
  · intro h
    have ha : a ≠ [] := by
      rintro rfl
      cases h
    have hb : b ≠ [] := by
      rintro rfl
      rw [polyMul_nil_right] at h
      cases h
    refine ⟨polyMul_error h, ha, hb, ?_⟩
    by_contra hzero
    rw [not_or, ← not_noZero_iff, ← not_noZero_iff, not_not, not_not] at hzero
    obtain ⟨p, hp, -⟩ := polyMul_ok ha hb hzero.1 hzero.2
    exact nomatch hp.symm.trans h
  · rintro ⟨rfl, ha, hb, hzero⟩
    cases hmul : polyMul a b with
    | error e => rw [polyMul_error hmul]
    | ok p =>
      simp only [polyMul, List.isEmpty_iff, ha, hb, Bool.or_eq_true, or_self, if_false, bind_eq_ok] at hmul
      obtain ⟨r, hr, -⟩ := hmul
      obtain ⟨hza, hzb⟩ := mulRows_noZero hb hr ha
      exact absurd hzero (not_or.2 ⟨fun h => hza _ h rfl, fun h => hzb _ h rfl⟩)

/-- A division by the zero polynomial faults in its first iteration. -/
theorem polyMod_nil (a : Poly) : polyMod a [] = .error .glogZero := by
  have hstep : modStep a [] = .error .glogZero := by
    cases h : modStep a [] with
    | ok a' =>
      rw [modStep, bind_eq_ok] at h
      obtain ⟨_, -, h⟩ := h
      cases h
    | error e => rw [modStep_error h]
  rw [polyMod, modLoop_of_long (Nat.zero_le _), hstep, error_bind]

theorem polyMod_eq_error {a b : Poly} {e : ErrorCode} (ha : Canonical a) :
    polyMod a b = .error e ↔ e = .glogZero ∧ (b = [] ∨ (b.length ≤ a.length ∧ 0#8 ∈ b)) := by
  by_cases hb : b = []
  · subst hb
    rw [polyMod_nil]
    simp [eq_comm]
  by_cases hshort : a.length < b.length
  · rw [polyMod_of_short hshort]
    simp [hb, Nat.not_le.2 hshort]
  by_cases hzero : 0#8 ∈ b
  · rw [polyMod_fault (Nat.not_lt.1 hshort) (not_noZero_iff.2 hzero)]
    simp [Nat.not_lt.1 hshort, hzero, eq_comm]
  · obtain ⟨r, hr, -⟩ := polyMod_ok ha hb (not_not.1 (mt not_noZero_iff.1 hzero))
    rw [hr]
    simp [hb, hzero]

/-- With the length in bounds, only a parity of 255 bytes over non-zero data fails. -/
theorem rsEncode_eq_error {ec : Byte} {s : State} {e : ErrorCode} (hroom : s.db.length + ec.toNat ≤ lenMax) :
    rsEncode s.db ec.toNat = .error e ↔ e = .glogZero ∧ ParityFaults ec s := by
  by_cases h : ParityFaults ec s
  · obtain ⟨rfl, -, hdata⟩ := id h
    have hfault : rsEncode s.db (255#8).toNat = .error .glogZero := rsEncode_255_fault hdata
    rw [hfault]
    simp [h, eq_comm]
  · obtain ⟨p, hp, -⟩ := rsEncode_ok_of_not_parityFaults hroom h
    rw [hp]
    simp [h]

theorem length_le_of_parityFaults {ec : Byte} {s : State} (h : ParityFaults ec s) : s.db.length + ec.toNat ≤ lenMax := by
  obtain ⟨rfl, hroom, -⟩ := h
  exact hroom

/-! ## The commands with an error of their own -/

section
variable {s : State} {e : ErrorCode} (hs : Accepting s)
include hs

theorem raises_glog_iff {n : Byte} : Raises (.glog n) s e ↔ n = 0#8 ∧ e = .glogZero := by
  rw [Raises, exec_glog, command_raises_iff hs, bind_update_eq_error, glog_eq_error]

theorem raises_pmul_iff :
    Raises .pmul s e ↔
      (e = .illegalCommand ∧ s.pa ≠ [] ∧ s.pb ≠ [] ∧ lenMax < s.pa.length + s.pb.length - 1) ∨
      (e = .glogZero ∧ ProductFaults s) := by
  rw [Raises, exec_pmul, command_raises_iff hs, bind_eq_error, refuseIf_eq_error]
  simp only [refuseIf_eq_ok, bind_update_eq_error, polyMul_eq_error, gt_iff_lt, List.length_pos_iff, exists_const,
    ProductFaults]
  rw [← Nat.not_lt (a := lenMax)]
  tauto

theorem raises_pmod_iff (hpa : Canonical s.pa) : Raises .pmod s e ↔ e = .glogZero ∧ RemainderFaults s := by
  rw [Raises, exec_pmod, command_raises_iff hs, bind_update_eq_error, polyMod_eq_error hpa, RemainderFaults]

theorem raises_rsenc_iff {ec : Byte} :
    Raises (.rsenc ec) s e ↔
      (e = .illegalCommand ∧ lenMax < s.db.length + ec.toNat) ∨ (e = .glogZero ∧ ParityFaults ec s) := by
  rw [Raises, exec_rsenc, command_raises_iff hs, bind_eq_error, refuseIf_eq_error]
  simp only [refuseIf_eq_ok, bind_update_eq_error, exists_const]
  refine or_congr_right ⟨fun ⟨hroom, h⟩ => (rsEncode_eq_error (Nat.not_lt.1 hroom)).1 h, fun ⟨he, h⟩ => ?_⟩
  have hroom := length_le_of_parityFaults h
  exact ⟨Nat.not_lt.2 hroom, (rsEncode_eq_error hroom).2 ⟨he, h⟩⟩

theorem raises_vsel_iff {lvl : Level} : Raises (.vsel lvl) s e ↔ e = .capacityExceeded ∧ TooLong lvl s := by
  rw [Raises, exec_vsel, command_raises_iff hs, bind_update_eq_error, selectVersion_eq_error]

/-- Once a version holds the payload, no later part of `GEN` can fail (60_exceptions.md R218). -/
theorem raises_gen_iff {lvl : Level} : Raises (.gen lvl) s e ↔ e = .capacityExceeded ∧ TooLong lvl s := by
  rw [Raises, exec_gen, command_raises_iff hs, bind_eq_error, selectVersion_eq_error]
  refine or_iff_left_of_imp ?_
  rintro ⟨v, hv, h⟩
  have hshort : ¬ TooLong lvl s := fun hlong => nomatch hv.symm.trans (selectVersion_of_tooLong hlong)
  obtain ⟨ver, bits, cw, h1, h2, hselect, hencode, -, hcw, -⟩ := gen_parts_ok hshort
  obtain rfl : ver.toNat = v := Except.ok.inj (hselect.symm.trans hv)
  obtain ⟨t, ht, -⟩ := runBestMask_answers (s := { s with ver := ver, ecl := lvl, bb := bits, cw := cw }) ⟨h1, h2⟩
  have hround : BitVec.ofNat 6 ver.toNat = ver := by simp
  rw [hencode, ok_bind, hcw, ok_bind, hround, ht] at h
  cases h

theorem raises_bbenc_iff (hver : s.ver.toNat ≤ 40) :
    Raises .bbenc s e ↔ (e = .illegalCommand ∧ s.ver = 0#6) ∨ (e = .overflow ∧ s.ver ≠ 0#6 ∧ DoesNotFit s) := by
  rw [Raises, exec_bbenc, command_raises_iff hs, bind_eq_error, requireVersion_eq_error]
  simp only [requireVersion_eq_ok, bind_update_eq_error, exists_const]
  refine or_congr_right ?_
  by_cases hzero : s.ver = 0#6
  · simp [hzero]
  · have hd := dataCw_eq_table s.ecl (v := s.ver.toNat) (by bv_omega) hver
    simp [encodeData_eq_error hd, DoesNotFit, hd, hzero]

theorem raises_isdark_iff {row col : Byte} :
    Raises (.isdark row col) s e ↔
      (e = .illegalCommand ∧ s.stage ≠ .final) ∨
      (e = .malformedMatrixAccess ∧ s.stage = .final ∧ (s.n.toNat ≤ row.toNat ∨ s.n.toNat ≤ col.toNat)) := by
  rw [Raises, exec_isdark, command_raises_iff hs, bind_eq_error, requireStage_eq_error]
  simp only [bind_update_eq_error, refuseIf_eq_error, requireStage_eq_ok, exists_const, List.mem_singleton, ge_iff_le]
  rw [and_left_comm]

end

/-! ## The commands whose only error is `IllegalCommand` -/

/-- The commands that R211 lists: each has an error besides `IllegalCommand`. -/
def isListed : Instr → Bool
  | .glog _ | .pmul | .pmod | .rsenc _ | .vsel _ | .gen _ | .bbenc | .isdark _ _ => true
  | _ => false

/-- Nothing but `IllegalCommand` comes out. -/
def OnlyIllegal {α : Type} (x : Except ErrorCode α) : Prop := ∀ e, x = .error e → e = .illegalCommand

theorem onlyIllegal_ok {α : Type} (a : α) : OnlyIllegal (.ok a) := fun _ h => nomatch h

theorem OnlyIllegal.of_eq_ok {α : Type} {x : Except ErrorCode α} (h : ∃ a, x = .ok a) : OnlyIllegal x := by
  obtain ⟨a, rfl⟩ := h
  exact onlyIllegal_ok a

theorem OnlyIllegal.bind {α β : Type} {x : Except ErrorCode α} {f : α → Except ErrorCode β} (hx : OnlyIllegal x)
    (hf : ∀ a, x = .ok a → OnlyIllegal (f a)) : OnlyIllegal (x >>= f) := by
  intro e h
  obtain h | ⟨a, ha, h⟩ := bind_eq_error.1 h
  · exact hx e h
  · exact hf a ha e h

/-- A check or a lookup before the update. -/
theorem OnlyIllegal.update {α β : Type} {x : Except ErrorCode α} (hx : OnlyIllegal x) (f : α → β) :
    OnlyIllegal (x >>= fun a => .ok (f a)) :=
  hx.bind fun a _ => onlyIllegal_ok (f a)

/-- An operand whose range is checked. -/
theorem onlyIllegal_guard {α : Type} {c : Prop} [Decidable c] (a : α) :
    OnlyIllegal (if c then .ok a else .error .illegalCommand) := by
  intro e h
  split at h <;> cases h
  rfl

theorem onlyIllegal_appendTo {α : Type} (buf extra : List α) : OnlyIllegal (appendTo buf extra) := by
  intro e h
  unfold appendTo at h
  split at h <;> cases h
  rfl

theorem onlyIllegal_requireVersion (s : State) : OnlyIllegal (requireVersion s) := fun _ h => (requireVersion_eq_error.1 h).1

theorem onlyIllegal_requireStage (allowed : List Stage) (s : State) : OnlyIllegal (requireStage allowed s) :=
  fun _ h => (requireStage_eq_error.1 h).1

theorem onlyIllegal_refuseIf {c : Prop} [Decidable c] : OnlyIllegal (refuseIf c .illegalCommand) :=
  fun _ h => (refuseIf_eq_error.1 h).1

theorem one_le_toNat {v : BitVec 6} (h : v ≠ 0#6) : 1 ≤ v.toNat := by bv_omega

/-- No command outside the list of R211 raises another error than `IllegalCommand` (60_exceptions.md R211). -/
theorem illegalCommand_of_unlisted {i : Instr} {s : State} {e : ErrorCode} (hcore : CoreOk s) (hs : Accepting s)
    (hi : isListed i = false) (h : Raises i s e) : e = .illegalCommand := by
  have hver : s.ver.toNat ≤ 40 := hcore.registers.ver
  suffices hbody : ∃ body, exec i s = command s body ∧ OnlyIllegal body by
    obtain ⟨body, hexec, honly⟩ := hbody
    exact honly e ((command_raises_iff hs).1 (hexec.symm.trans h))
  cases i with
  | glog _ | pmul | pmod | rsenc _ | vsel _ | gen _ | bbenc | isdark _ _ => cases hi
  | nop | gexp _ | pclr _ | dbrst | bbrst | modcnt | plrst => exact ⟨_, rfl, onlyIllegal_ok _⟩
  | ppush _ _ | dbpush _ | plpush _ => exact ⟨_, rfl, (onlyIllegal_appendTo _ _).update _⟩
  | setvl _ _ | bchfmt _ | bchver _ | maskq _ _ _ => exact ⟨_, rfl, (onlyIllegal_guard _).update _⟩
  | mxrsv | mxfin | mxpen => exact ⟨_, rfl, (onlyIllegal_requireStage _ s).update _⟩
  | mxrst => exact ⟨_, rfl, (onlyIllegal_requireVersion s).update _⟩
  | bbput _ _ => exact ⟨_, rfl, (onlyIllegal_guard _).bind fun _ _ => (onlyIllegal_appendTo _ _).update _⟩
  | mxmap _ => exact ⟨_, rfl, (onlyIllegal_guard _).bind fun _ _ => (onlyIllegal_requireStage _ s).update _⟩
  | rsgen ec =>
    obtain ⟨g, hg, -⟩ := generator_ok (ec := ec.toNat) (by bv_omega)
    exact ⟨_, rfl, (OnlyIllegal.of_eq_ok ⟨g, hg⟩).update _⟩
  | mxpat =>
    refine ⟨_, rfl, (onlyIllegal_requireStage _ s).bind fun _ hstage => ?_⟩
    have hempty : s.stage = .empty := by simpa using requireStage_eq_ok.1 hstage
    have hne : s.ver ≠ 0#6 := (hcore.shape.side (by simp [hempty])).1
    exact (OnlyIllegal.of_eq_ok (alignPositions_ok (one_le_toNat hne) hver)).update _
  | split =>
    refine ⟨_, exec_split s, (onlyIllegal_requireVersion s).bind fun _ hreq => ?_⟩
    have h1 := one_le_toNat (requireVersion_eq_ok.1 hreq)
    refine (OnlyIllegal.of_eq_ok (dataCw_ok s.ecl h1 hver)).bind fun d hd => onlyIllegal_refuseIf.bind fun _ hlen => ?_
    have hfull : s.bb.length = 8 * tableData s.ver.toNat s.ecl := by
      rw [dataCw_eq_table s.ecl h1 hver, Except.ok.injEq] at hd
      rw [hd, not_not.1 (refuseIf_eq_ok.1 hlen)]
    obtain ⟨cw, hcw, -⟩ := finalCodewords_ok s.cfg h1 hver hfull
    exact (OnlyIllegal.of_eq_ok ⟨cw, hcw⟩).update _
  | mxbest =>
    refine ⟨_, exec_mxbest s, (onlyIllegal_requireVersion s).bind fun _ hreq => ?_⟩
    obtain ⟨t, ht, -⟩ := runBestMask_answers ⟨one_le_toNat (requireVersion_eq_ok.1 hreq), hver⟩
    exact .of_eq_ok ⟨t, ht⟩

/-- Settles O11: an error in `ERR` was raised, and the conditions are those under which each command of R211 raises. -/
theorem errorsComeFromTheirCommandsAndConditions : Obligations.ErrorsComeFromTheirCommandsAndConditions := by
  refine ⟨fun i s t e hcore hs h he => ?_, fun s hcore hs => ?_⟩
  · have hr : Raises i s e := raises_of_failed hs h he
    cases hi : isListed i with
    | false => exact .inl (illegalCommand_of_unlisted hcore hs hi hr)
    | true =>
      cases i with
      | glog n =>
        obtain ⟨rfl, rfl⟩ := (raises_glog_iff hs).1 hr
        simp
      | pmul =>
        obtain ⟨rfl, -⟩ | ⟨rfl, hf⟩ := (raises_pmul_iff hs).1 hr
        · exact .inl rfl
        · simp [hf]
      | pmod =>
        obtain ⟨rfl, hf⟩ := (raises_pmod_iff hs hcore.registers.pa).1 hr
        simp [hf]
      | rsenc ec =>
        obtain ⟨rfl, -⟩ | ⟨rfl, hf⟩ := (raises_rsenc_iff hs).1 hr
        · exact .inl rfl
        · simp [hf]
      | vsel lvl =>
        obtain ⟨rfl, hf⟩ := (raises_vsel_iff hs).1 hr
        simp [hf]
      | gen lvl =>
        obtain ⟨rfl, hf⟩ := (raises_gen_iff hs).1 hr
        simp [hf]
      | bbenc =>
        obtain ⟨rfl, -⟩ | ⟨rfl, -, hf⟩ := (raises_bbenc_iff hs hcore.registers.ver).1 hr
        · exact .inl rfl
        · simp [hf]
      | isdark row col =>
        obtain ⟨rfl, -⟩ | ⟨rfl, -, hf⟩ := (raises_isdark_iff hs).1 hr
        · exact .inl rfl
        · simp [hf]
      | _ => cases hi
  · have hver := hcore.registers.ver
    refine ⟨fun lvl hlong => ⟨?_, ?_⟩, fun hne hf => ?_, fun row col hfinal hout => ?_, ?_, fun hf => ?_, fun hf => ?_,
      fun ec hf => ?_⟩
    · exact ((raises_vsel_iff hs).2 ⟨rfl, hlong⟩).turnedAway rfl
    · exact ((raises_gen_iff hs).2 ⟨rfl, hlong⟩).turnedAway rfl
    · exact ((raises_bbenc_iff hs hver).2 (.inr ⟨rfl, hne, hf⟩)).turnedAway rfl
    · exact ((raises_isdark_iff hs).2 (.inr ⟨rfl, hfinal, hout⟩)).turnedAway rfl
    · exact ((raises_glog_iff hs).2 ⟨rfl, rfl⟩).stuckWith rfl
    · exact ((raises_pmul_iff hs).2 (.inr ⟨rfl, hf⟩)).stuckWith rfl
    · exact ((raises_pmod_iff hs hcore.registers.pa).2 ⟨rfl, hf⟩).stuckWith rfl
    · exact ((raises_rsenc_iff hs).2 (.inr ⟨rfl, hf⟩)).stuckWith rfl

/-! ## The capacity thresholds -/

/-- The version-40 capacities (60_exceptions.md R217). -/
theorem tooLong_iff_of_limit {lvl : Level} {limit : Nat} {s : State}
    (h : (lvl, limit) ∈ [(Level.l, 2953), (Level.m, 2331), (Level.q, 1663), (Level.h, 1273)]) :
    TooLong lvl s ↔ limit < s.payload.length := by
  have hcap : ∀ p ∈ [(Level.l, 2953), (Level.m, 2331), (Level.q, 1663), (Level.h, 1273)], tableCapacity 40 p.1 = p.2 := by
    decide +kernel
  rw [tooLong_iff, hcap _ h]

/-- Settles O12: `VSEL` and `GEN` raise exactly on a payload over the version-40 capacity, and complete on every other. -/
theorem capacityThresholdsOfVselAndGen : Obligations.CapacityThresholdsOfVselAndGen := by
  refine ⟨rfl, fun s lvl limit hs hlimit => ?_⟩
  rw [← Nat.not_lt, ← tooLong_iff_of_limit hlimit]
  refine ⟨fun hlong => ⟨?_, ?_⟩, fun hfits => ⟨?_, ?_⟩⟩
  · exact ((raises_vsel_iff hs).2 ⟨rfl, hlong⟩).turnedAway rfl
  · exact ((raises_gen_iff hs).2 ⟨rfl, hlong⟩).turnedAway rfl
  · exact completes_of_not_raises hs fun e h => hfits ((raises_vsel_iff hs).1 h).2
  · exact completes_of_not_raises hs fun e h => hfits ((raises_gen_iff hs).1 h).2

/-! ## Overflow and queries outside the matrix -/

theorem exec_bbenc_of_doesNotFit {s : State} (hs : Accepting s) (hver : VersionSelected s) (h : DoesNotFit s) :
    exec .bbenc s = turnedAway .overflow s := by
  have hne : s.ver ≠ 0#6 := by bv_omega
  exact ((raises_bbenc_iff hs hver.2).2 (.inr ⟨rfl, hne, h⟩)).turnedAway rfl

theorem exec_isdark_of_outside {s : State} {row col : Byte} (hs : Accepting s) (hfinal : s.stage = .final)
    (h : s.n.toNat ≤ row.toNat ∨ s.n.toNat ≤ col.toNat) :
    exec (.isdark row col) s = turnedAway .malformedMatrixAccess s :=
  ((raises_isdark_iff hs).2 (.inr ⟨rfl, hfinal, h⟩)).turnedAway rfl

theorem exec_isdark_completes {s : State} {row col : Byte} (hs : Accepting s) (hfinal : s.stage = .final)
    (hrow : row.toNat < s.n.toNat) (hcol : col.toNat < s.n.toNat) :
    ∃ t, exec (.isdark row col) s = .next t ∧ t.err = .ok := by
  refine completes_of_not_raises hs fun e h => ?_
  obtain ⟨-, hstage⟩ | ⟨-, -, hout⟩ := (raises_isdark_iff hs).1 h
  · exact hstage hfinal
  · omega

/-- Settles O13: a query outside changes `ERR` alone, which no command reads. -/
theorem overflowAndBadQueriesDisturbNothing : Obligations.OverflowAndBadQueriesDisturbNothing := by
  refine ⟨rfl, rfl, fun s hs hver h => exec_bbenc_of_doesNotFit hs hver h, fun lvl s t hs h he => ?_,
    fun s row col hs hfinal hout => ?_⟩
  · exact nomatch ((raises_gen_iff hs).1 (raises_of_failed hs h he)).1
  · have hquery := exec_isdark_of_outside hs hfinal hout
    refine ⟨_, hquery, rfl, (exec_of_err _ hs _).trans hquery, fun row' col' hrow hcol => ?_⟩
    rw [exec_of_err _ hs]
    exact ⟨rfl, exec_isdark_completes hs hfinal hrow hcol⟩

end Sys2Proof.Machine

/-! SUPPORT. The decoder and the encoder undo each other (30_encoding.md R60 to R67). -/

namespace Sys2Proof

theorem levelOfByte_levelByte (lvl : Level) : levelOfByte (levelByte lvl) = some lvl := by cases lvl <;> rfl

theorem polyRegOfByte_polyRegByte (r : PolyReg) : polyRegOfByte (polyRegByte r) = some r := by cases r <;> rfl

theorem levelByte_of_levelOfByte {v : Byte} {lvl : Level} (h : levelOfByte v = some lvl) : levelByte lvl = v := by
  unfold levelOfByte at h
  split at h <;> cases h <;> (apply BitVec.eq_of_toNat_eq; simp_all [levelByte, levelCode])

theorem polyRegByte_of_polyRegOfByte {v : Byte} {r : PolyReg} (h : polyRegOfByte v = some r) : polyRegByte r = v := by
  unfold polyRegOfByte at h
  split at h <;> cases h <;> (apply BitVec.eq_of_toNat_eq; simp_all [polyRegByte])

/-! ## From a command to its word and back -/

/-- The command's operation code has a row, whose unused fields the command's word leaves zero. -/
theorem rowOf_opcodeOf (i : Instr) :
    ∃ row, rowOf (opcodeOf i) = some row ∧ row.format.unusedZero (fieldsFor i) = true := by
  cases i <;> exact ⟨_, rfl, rfl⟩

/-- The operands written into the fields are the operands read from them. -/
theorem readOperands_fieldsFor (i : Instr) : readOperands (fieldsFor i) = some i := by
  cases i with
  | gexp n => exact congrArg (fun v => some (Instr.gexp v)) (immHigh_append_immLow n)
  | bbput n v => exact congrArg (fun v => some (Instr.bbput n v)) (immHigh_append_immLow v)
  | pclr r => exact congrArg (Option.map Instr.pclr) (polyRegOfByte_polyRegByte r)
  | ppush r v => exact congrArg (Option.map fun r => Instr.ppush r v) (polyRegOfByte_polyRegByte r)
  | vsel lvl => exact congrArg (Option.map Instr.vsel) (levelOfByte_levelByte lvl)
  | setvl lvl v => exact congrArg (Option.map fun lvl => Instr.setvl lvl v) (levelOfByte_levelByte lvl)
  | gen lvl => exact congrArg (Option.map Instr.gen) (levelOfByte_levelByte lvl)
  | _ => rfl

theorem decode_encode {i : Instr} (h : i.wellFormed = true) : decode (encode i) = .ok i := by
  obtain ⟨row, hrow, hz⟩ := rowOf_opcodeOf i
  refine (decode_eq_ok_of_row (row := row) ?_).2 ?_
  · rw [fieldsOf_encode, fieldsFor_op, hrow]
  · rw [fieldsOf_encode]
    exact ⟨hz, readOperands_fieldsFor i, h⟩

/-- Settles O7: the fields of the word are those of the command, and its row reads the operands back. -/
theorem encodeThenDecodeIsIdentity : Obligations.EncodeThenDecodeIsIdentity := fun _ h => decode_encode h

/-! ## From a word to its command and back -/

theorem rowOf_of_decode {w : Word} {i : Instr} (h : decode w = .ok i) : ∃ row, rowOf (fieldsOf w).op = some row := by
  cases hrow : rowOf (fieldsOf w).op with
  | none => exact nomatch h.symm.trans (decode_of_no_row hrow)
  | some row => exact ⟨row, rfl⟩

theorem eq_ofNat_of_toNat_eq {x : Byte} {k : Nat} (h : x.toNat = k) : x = BitVec.ofNat 8 k := by simp [← h]

/-- The fields of a word whose unused fields are zero are those of the command its operands name: one case for each row,
the rows grouped by their format of 30_encoding.md R61. -/
theorem fieldsFor_of_readOperands {f : Fields} {row : EncodingRow} {i : Instr} (hrow : rowOf f.op = some row)
    (hz : row.format.unusedZero f = true) (h : readOperands f = some i) : fieldsFor i = f := by
  obtain ⟨op, a, b, c⟩ := f
  unfold readOperands at h
  split at h
  case h_33 => cases h
  all_goals
    rename_i hop
    obtain rfl := eq_ofNat_of_toNat_eq hop
    cases hrow
  case h_1.refl | h_6.refl | h_7.refl | h_9.refl | h_14.refl | h_16.refl | h_17.refl | h_18.refl | h_19.refl | h_20.refl
      | h_22.refl | h_24.refl | h_25.refl | h_30.refl | h_31.refl =>
    obtain ⟨rfl, rfl, rfl⟩ := (unusedZero_z _).1 hz
    cases h
    rfl
  case h_3.refl | h_8.refl | h_10.refl | h_11.refl | h_21.refl | h_26.refl | h_27.refl | h_32.refl =>
    obtain ⟨rfl, rfl⟩ := (unusedZero_c _).1 hz
    cases h
    rfl
  case h_2.refl =>
    obtain rfl := (unusedZero_i _).1 hz
    cases h
    simp [fieldsFor, opcodeOf, Fields.imm16, imm_bytes]
  case h_15.refl =>
    cases h
    simp [fieldsFor, opcodeOf, Fields.imm16, imm_bytes]
  case h_23.refl =>
    cases h
    rfl
  case h_29.refl =>
    obtain rfl := (unusedZero_bc _).1 hz
    cases h
    rfl
  case h_4.refl =>
    obtain ⟨rfl, rfl⟩ := (unusedZero_a _).1 hz
    obtain ⟨r, hr, rfl⟩ := Option.map_eq_some_iff.1 h
    simp [fieldsFor, opcodeOf, polyRegByte_of_polyRegOfByte hr]
  case h_5.refl =>
    obtain rfl := (unusedZero_ac _).1 hz
    obtain ⟨r, hr, rfl⟩ := Option.map_eq_some_iff.1 h
    simp [fieldsFor, opcodeOf, polyRegByte_of_polyRegOfByte hr]
  case h_12.refl | h_28.refl =>
    obtain ⟨rfl, rfl⟩ := (unusedZero_a _).1 hz
    obtain ⟨lvl, hlvl, rfl⟩ := Option.map_eq_some_iff.1 h
    simp [fieldsFor, opcodeOf, levelByte_of_levelOfByte hlvl]
  case h_13.refl =>
    obtain rfl := (unusedZero_ac _).1 hz
    obtain ⟨lvl, hlvl, rfl⟩ := Option.map_eq_some_iff.1 h
    simp [fieldsFor, opcodeOf, levelByte_of_levelOfByte hlvl]

/-- A word that decodes is the word of the command it decodes to. -/
theorem encode_of_decode {w : Word} {i : Instr} (h : decode w = .ok i) : i.wellFormed = true ∧ encode i = w := by
  obtain ⟨row, hrow⟩ := rowOf_of_decode h
  obtain ⟨hz, hread, hwf⟩ := (decode_eq_ok_of_row hrow).1 h
  exact ⟨hwf, word_eq_of_fields ((fieldsOf_encode i).trans (fieldsFor_of_readOperands hrow hz hread))⟩

/-! ## The match bits -/

/-- Every format's mask covers the whole of `op` (30_encoding.md R61). -/
theorem fieldsOf_and_mask_op (w : Word) (fmt : Format) : (fieldsOf (w &&& fmt.mask)).op = (fieldsOf w).op := by
  have hmask : fmt.mask.extractLsb' 24 8 = BitVec.allOnes 8 := by cases fmt <;> rfl
  simp only [fieldsOf, BitVec.extractLsb'_and, hmask, BitVec.and_allOnes]

theorem fieldsOf_matchWord_op (r : EncodingRow) : (fieldsOf r.matchWord).op = r.op := by
  apply BitVec.eq_of_toNat_eq
  rw [(fieldsOf_toNat _).1, EncodingRow.matchWord, toNat_append_eq]
  simp

/-- The match bits of a row give away its operation code. -/
theorem op_of_match {w : Word} {r : EncodingRow} (h : w &&& r.format.mask = r.matchWord) : (fieldsOf w).op = r.op := by
  rw [← fieldsOf_and_mask_op w r.format, h, fieldsOf_matchWord_op]

/-- No two rows share an operation code (30_encoding.md R63). -/
theorem eq_of_op_eq : ∀ r ∈ encodingTable, ∀ r' ∈ encodingTable, r.op = r'.op → r = r' := by decide +kernel

/-- Settles O8: decoding undoes encoding in both directions, and the match bits of a row hold its operation code. -/
theorem everyWordIsOneCommandOrIllegal : Obligations.EveryWordIsOneCommandOrIllegal := by
  refine ⟨fun w => ?_, fun r hr r' hr' w h h' => eq_of_op_eq r hr r' hr' ((op_of_match h).symm.trans (op_of_match h'))⟩
  cases hw : decode w with
  | ok i =>
    obtain ⟨hwf, henc⟩ := encode_of_decode hw
    refine .inl ⟨i, rfl, hwf, henc, fun j hj hjw => ?_⟩
    have hdecode : decode w = .ok j := hjw ▸ decode_encode hj
    exact Except.ok.inj (hdecode.symm.trans hw)
  | error e =>
    refine .inr ⟨e, rfl, fun j hj hjw => ?_⟩
    have hdecode : decode w = .ok j := hjw ▸ decode_encode hj
    exact nomatch hdecode.symm.trans hw

end Sys2Proof

/-! SUPPORT. What a command that completes leaves, said once for all 32 commands (30_encoding.md R63). -/

namespace Sys2Proof.Machine

/-! ## The results of the polynomial commands -/

theorem polyMul_canonical {a b p : Poly} (h : polyMul a b = .ok p) : Canonical p := by
  unfold polyMul at h
  split at h
  · cases h
    simp [Canonical]
  · obtain ⟨r, -, h⟩ := bind_eq_ok.1 h
    cases h
    exact strip_canonical r

/-- A product has no more coefficients than its factors have together, less one. -/
theorem polyMul_length_le {a b p : Poly} (h : polyMul a b = .ok p) (hmax : a ≠ [] → b ≠ [] → a.length + b.length - 1 ≤ lenMax) :
    p.length ≤ lenMax := by
  unfold polyMul at h
  split at h
  · cases h
    exact Nat.zero_le _
  · rename_i hne
    obtain ⟨ha, hb⟩ : a ≠ [] ∧ b ≠ [] := by simpa using hne
    obtain ⟨r, hr, h⟩ := bind_eq_ok.1 h
    cases h
    exact (strip_length_le r).trans (mulRows_length hb hr ▸ hmax ha hb)

theorem modLoop_result {b p : Poly} : ∀ {fuel : Nat} {a : Poly}, Canonical a → modLoop fuel a b = .ok p →
    Canonical p ∧ p.length ≤ a.length
  | 0, a, ha, h => by
    cases h
    exact ⟨ha, Nat.le_refl _⟩
  | fuel + 1, a, ha, h => by
    rw [modLoop] at h
    split at h
    · cases h
      exact ⟨ha, Nat.le_refl _⟩
    · obtain ⟨a', ha', h⟩ := bind_eq_ok.1 h
      obtain ⟨hp, hlen⟩ := modLoop_result (modStep_canonical ha') h
      exact ⟨hp, hlen.trans (modStep_shortens ha').le⟩

/-- A remainder is canonical and no longer than the dividend. -/
theorem polyMod_result {a b p : Poly} (ha : Canonical a) (h : polyMod a b = .ok p) : Canonical p ∧ p.length ≤ a.length :=
  modLoop_result ha h

theorem generator_canonical {ec : Nat} {g : Poly} (h : ec ≤ 255) (hg : generator ec = .ok g) :
    Canonical g ∧ g.length = ec + 1 := by
  obtain ⟨g', hg', hlen⟩ := generator_ok h
  obtain rfl : g = g' := Except.ok.inj (hg.symm.trans hg')
  exact ⟨by simp [Canonical, generator_head h hg], hlen⟩

theorem rsEncode_length {ec : Byte} {s : State} {e : List Byte} (hroom : s.db.length + ec.toNat ≤ lenMax)
    (h : rsEncode s.db ec.toNat = .ok e) : e.length = ec.toNat := by
  have hok : ¬ ParityFaults ec s := fun hf => nomatch h.symm.trans ((rsEncode_eq_error hroom).2 ⟨rfl, hf⟩)
  obtain ⟨e', he', hlen⟩ := rsEncode_ok_of_not_parityFaults hroom hok
  obtain rfl : e = e' := Except.ok.inj (h.symm.trans he')
  exact hlen

theorem selectVersion_range {lvl : Level} {s : State} {v : Nat} (h : selectVersion s.payload.length lvl = .ok v) :
    ¬ TooLong lvl s ∧ 1 ≤ v ∧ v ≤ 40 := by
  have hshort : ¬ TooLong lvl s := fun hlong => nomatch h.symm.trans (selectVersion_of_tooLong hlong)
  obtain ⟨v', hv', h1, h2, -⟩ := selectVersion_ok hshort
  obtain rfl : v = v' := Except.ok.inj (h.symm.trans hv')
  exact ⟨hshort, h1, h2⟩

theorem versionOperand_eq_ok {v : Byte} {ver : BitVec 6} :
    versionOperand v = .ok ver ↔ (1 ≤ v.toNat ∧ v.toNat ≤ 40) ∧ ver = BitVec.ofNat 6 v.toNat := by
  unfold versionOperand
  split <;> simp_all [eq_comm]

theorem maskOperand_eq_ok {k : Byte} {mask : BitVec 3} :
    maskOperand k = .ok mask ↔ k.toNat ≤ 7 ∧ mask = BitVec.ofNat 3 k.toNat := by
  unfold maskOperand
  split <;> simp_all [eq_comm]

/-! ## The effect of a command that completes -/

/-- The state `u` that command `i` leaves where it completes in `s`, but for `ERR`. -/
def Effect (i : Instr) (s u : State) : Prop :=
  match i with
  | .nop => u = s
  | .gexp _ | .glog _ | .maskq _ _ _ | .mxpen | .bchfmt _ | .bchver _ | .isdark _ _ | .modcnt => ∃ v, u = setRes v s
  | .pclr r | .ppush r _ => ∃ p, Canonical p ∧ p.length ≤ lenMax ∧ u = writePoly r p s
  | .pmul | .rsgen _ => ∃ p, Canonical p ∧ p.length ≤ lenMax ∧ u = { s with pr := p }
  | .pmod => ∃ p, polyMod s.pa s.pb = .ok p ∧ u = { s with pr := p }
  | .dbrst | .dbpush _ => ∃ db, db.length ≤ lenMax ∧ u = { s with db := db }
  | .plrst | .plpush _ => ∃ p, p.length ≤ lenMax ∧ u = { s with payload := p }
  | .rsenc ec => ∃ e, e.length = ec.toNat ∧ u = { s with ecb := e }
  | .bbrst | .bbput _ _ => ∃ bb, bb.length ≤ lenMax ∧ u = { s with bb := bb }
  | .bbenc => ∃ bb, encodeData s.payload s.ver.toNat s.ecl = .ok bb ∧ u = { s with bb := bb }
  | .split => ∃ cw, finalCodewords s.cfg s.bb s.ver.toNat s.ecl = .ok cw ∧ dataCw s.ver.toNat s.ecl = .ok (s.bb.length / 8) ∧
      s.bb.length % 8 = 0 ∧ u = { s with cw := cw }
  | .vsel lvl => ∃ v, 1 ≤ v ∧ v ≤ 40 ∧ u = setRes (resOfNat v) (discardMatrix { s with ver := BitVec.ofNat 6 v, ecl := lvl })
  | .setvl lvl v => 1 ≤ v.toNat ∧ v.toNat ≤ 40 ∧ u = discardMatrix { s with ver := BitVec.ofNat 6 v.toNat, ecl := lvl }
  | .mxrst => s.ver ≠ 0#6 ∧
      u = { s with n := moduleCount s.ver, mx := unsetGrid (moduleCount s.ver).toNat, stage := .empty }
  | .mxpat => s.stage = .empty ∧ ∃ pos, alignPositions s.ver.toNat = .ok pos ∧
      u = { s with mx := placePatterns s.n.toNat pos s.mx, stage := .patterns }
  | .mxrsv => s.stage = .patterns ∧ u = { s with mx := reserveMeta s.n.toNat s.ver.toNat s.mx, stage := .reserved }
  | .mxmap k => s.stage = .reserved ∧ k.toNat ≤ 7 ∧
      u = { s with mask := BitVec.ofNat 3 k.toNat, mx := mapData s.n.toNat s.cw (BitVec.ofNat 3 k.toNat) s.mx, stage := .mapped }
  | .mxfin => s.stage = .mapped ∧ u = { s with mx := writeMeta s.n.toNat s.ecl s.mask s.ver s.mx, stage := .final }
  | .mxbest => s.ver ≠ 0#6 ∧ runBestMask s = .ok u
  | .gen lvl => ∃ ver bb cw, 1 ≤ ver.toNat ∧ ver.toNat ≤ 40 ∧ bb.length = 8 * tableData ver.toNat lvl ∧
      cw.length = tableTotal ver.toNat lvl ∧ runBestMask { s with ver := ver, ecl := lvl, bb := bb, cw := cw } = .ok u

/-- Every command is a body that answers nothing but its effect. -/
theorem exec_body (i : Instr) (s : State) : ∃ body, exec i s = command s body ∧ ∀ u, body = .ok u → Effect i s u := by
  cases i with
  | nop =>
    refine ⟨.ok s, rfl, fun u hu => ?_⟩
    cases hu
    rfl
  | gexp _ | modcnt =>
    refine ⟨.ok (setRes _ s), rfl, fun u hu => ?_⟩
    cases hu
    exact ⟨_, rfl⟩
  | glog _ | maskq _ _ _ | mxpen | bchfmt _ | bchver _ =>
    refine ⟨_, rfl, fun u hu => ?_⟩
    obtain ⟨_, -, hu⟩ := bind_eq_ok.1 hu
    cases hu
    exact ⟨_, rfl⟩
  | isdark row col =>
    refine ⟨_, exec_isdark row col s, fun u hu => ?_⟩
    obtain ⟨_, -, hu⟩ := bind_eq_ok.1 hu
    obtain ⟨_, -, hu⟩ := bind_eq_ok.1 hu
    cases hu
    exact ⟨_, rfl⟩
  | pclr r =>
    refine ⟨.ok (writePoly r [] s), rfl, fun u hu => ?_⟩
    cases hu
    exact ⟨[], by simp [Canonical], Nat.zero_le _, rfl⟩
  | ppush r v =>
    refine ⟨_, exec_ppush r v s, fun u hu => ?_⟩
    obtain ⟨p, hp, hu⟩ := bind_eq_ok.1 hu
    obtain ⟨hlen, rfl⟩ := appendTo_eq_ok.1 hp
    cases hu
    exact ⟨_, strip_canonical _, (strip_length_le _).trans (by rwa [List.length_append]), rfl⟩
  | pmul =>
    refine ⟨_, exec_pmul s, fun u hu => ?_⟩
    obtain ⟨_, hroom, hu⟩ := bind_eq_ok.1 hu
    obtain ⟨p, hp, hu⟩ := bind_eq_ok.1 hu
    cases hu
    have hmax := refuseIf_eq_ok.1 hroom
    refine ⟨p, polyMul_canonical hp, polyMul_length_le hp fun ha hb => ?_, rfl⟩
    have := List.length_pos_iff.2 ha
    have := List.length_pos_iff.2 hb
    omega
  | pmod =>
    refine ⟨_, exec_pmod s, fun u hu => ?_⟩
    obtain ⟨p, hp, hu⟩ := bind_eq_ok.1 hu
    cases hu
    exact ⟨p, hp, rfl⟩
  | rsgen ec =>
    refine ⟨_, exec_rsgen ec s, fun u hu => ?_⟩
    obtain ⟨g, hg, hu⟩ := bind_eq_ok.1 hu
    cases hu
    have hec : ec.toNat ≤ 255 := by bv_omega
    obtain ⟨hcan, hlen⟩ := generator_canonical hec hg
    exact ⟨g, hcan, by rw [hlen, lenMax]; omega, rfl⟩
  | dbrst | plrst | bbrst =>
    refine ⟨.ok _, rfl, fun u hu => ?_⟩
    cases hu
    exact ⟨[], Nat.zero_le _, rfl⟩
  | dbpush _ | plpush _ =>
    refine ⟨_, rfl, fun u hu => ?_⟩
    obtain ⟨b, hb, hu⟩ := bind_eq_ok.1 hu
    obtain ⟨hlen, rfl⟩ := appendTo_eq_ok.1 hb
    cases hu
    exact ⟨_, by rwa [List.length_append], rfl⟩
  | bbput _ _ =>
    refine ⟨_, rfl, fun u hu => ?_⟩
    obtain ⟨_, -, hu⟩ := bind_eq_ok.1 hu
    obtain ⟨b, hb, hu⟩ := bind_eq_ok.1 hu
    obtain ⟨hlen, rfl⟩ := appendTo_eq_ok.1 hb
    cases hu
    exact ⟨_, by rwa [List.length_append], rfl⟩
  | rsenc ec =>
    refine ⟨_, exec_rsenc ec s, fun u hu => ?_⟩
    obtain ⟨_, hroom, hu⟩ := bind_eq_ok.1 hu
    obtain ⟨e, he, hu⟩ := bind_eq_ok.1 hu
    cases hu
    exact ⟨e, rsEncode_length (Nat.not_lt.1 (refuseIf_eq_ok.1 hroom)) he, rfl⟩
  | bbenc =>
    refine ⟨_, exec_bbenc s, fun u hu => ?_⟩
    obtain ⟨_, -, hu⟩ := bind_eq_ok.1 hu
    obtain ⟨bb, hbb, hu⟩ := bind_eq_ok.1 hu
    cases hu
    exact ⟨bb, hbb, rfl⟩
  | split =>
    refine ⟨_, exec_split s, fun u hu => ?_⟩
    obtain ⟨_, -, hu⟩ := bind_eq_ok.1 hu
    obtain ⟨d, hd, hu⟩ := bind_eq_ok.1 hu
    obtain ⟨_, hlen, hu⟩ := bind_eq_ok.1 hu
    obtain ⟨cw, hcw, hu⟩ := bind_eq_ok.1 hu
    cases hu
    have hfull : s.bb.length = 8 * d := not_not.1 (refuseIf_eq_ok.1 hlen)
    exact ⟨cw, hcw, by rw [hfull, Nat.mul_div_cancel_left d (by decide), hd], by omega, rfl⟩
  | vsel lvl =>
    refine ⟨_, exec_vsel lvl s, fun u hu => ?_⟩
    obtain ⟨v, hv, hu⟩ := bind_eq_ok.1 hu
    cases hu
    obtain ⟨-, h1, h2⟩ := selectVersion_range hv
    exact ⟨v, h1, h2, rfl⟩
  | setvl lvl v =>
    refine ⟨_, rfl, fun u hu => ?_⟩
    obtain ⟨ver, hver, hu⟩ := bind_eq_ok.1 hu
    obtain ⟨⟨h1, h2⟩, rfl⟩ := versionOperand_eq_ok.1 hver
    cases hu
    exact ⟨h1, h2, rfl⟩
  | mxrst =>
    refine ⟨_, rfl, fun u hu => ?_⟩
    obtain ⟨_, hver, hu⟩ := bind_eq_ok.1 hu
    cases hu
    exact ⟨requireVersion_eq_ok.1 hver, rfl⟩
  | mxpat =>
    refine ⟨_, rfl, fun u hu => ?_⟩
    obtain ⟨_, hstage, hu⟩ := bind_eq_ok.1 hu
    obtain ⟨pos, hpos, hu⟩ := bind_eq_ok.1 hu
    cases hu
    exact ⟨by simpa using requireStage_eq_ok.1 hstage, pos, hpos, rfl⟩
  | mxrsv | mxfin =>
    refine ⟨_, rfl, fun u hu => ?_⟩
    obtain ⟨_, hstage, hu⟩ := bind_eq_ok.1 hu
    cases hu
    exact ⟨by simpa using requireStage_eq_ok.1 hstage, rfl⟩
  | mxmap k =>
    refine ⟨_, rfl, fun u hu => ?_⟩
    obtain ⟨mask, hmask, hu⟩ := bind_eq_ok.1 hu
    obtain ⟨_, hstage, hu⟩ := bind_eq_ok.1 hu
    obtain ⟨hk, rfl⟩ := maskOperand_eq_ok.1 hmask
    cases hu
    exact ⟨by simpa using requireStage_eq_ok.1 hstage, hk, rfl⟩
  | mxbest =>
    refine ⟨_, rfl, fun u hu => ?_⟩
    obtain ⟨_, hver, hu⟩ := bind_eq_ok.1 hu
    exact ⟨requireVersion_eq_ok.1 hver, hu⟩
  | gen lvl =>
    refine ⟨_, exec_gen lvl s, fun u hu => ?_⟩
    obtain ⟨v, hv, hu⟩ := bind_eq_ok.1 hu
    obtain ⟨ver, bb, cw, h1, h2, hselect, hencode, hbb, hfinal, hcw⟩ := gen_parts_ok (selectVersion_range hv).1
    obtain rfl : ver.toNat = v := Except.ok.inj (hselect.symm.trans hv)
    rw [hencode, ok_bind, hfinal, ok_bind, BitVec.ofNat_toNat, BitVec.setWidth_eq] at hu
    exact ⟨ver, bb, cw, h1, h2, hbb, hcw, hu⟩

/-- Everything a command can do: it is discarded, it has its effect, or it raises one error and has none. -/
theorem exec_cases {i : Instr} {s t : State} (h : exec i s = .next t) :
    (s.fault = true ∧ t = s) ∨ (s.fault = false ∧ ∃ u, Effect i s u ∧ t = succeed u) ∨
      (s.fault = false ∧ ∃ e, Raises i s e ∧ t = raise e s) := by
  obtain ⟨body, hexec, heffect⟩ := exec_body i s
  obtain ⟨hf, rfl⟩ | ⟨hf, u, hu, rfl⟩ | ⟨hf, e, -, rfl⟩ := command_cases (hexec.symm.trans h)
  · exact .inl ⟨hf, rfl⟩
  · exact .inr (.inl ⟨hf, u, heffect u hu, rfl⟩)
  · exact .inr (.inr ⟨hf, e, h, rfl⟩)

/-- What the search of the best mask writes, and what it leaves alone. -/
theorem runBestMask_eq_ok {s u : State} (h : runBestMask s = .ok u) :
    ∃ (pos : List Nat) (best : BitVec 3 × Nat), alignPositions s.ver.toNat = .ok pos ∧ u = { s with
      n := moduleCount s.ver, mx := buildFinal (moduleCount s.ver).toNat s.ver pos s.cw s.ecl best.1, mask := best.1,
      bestpen := BitVec.ofNat 32 best.2, stage := .final } := by
  obtain ⟨pos, hpos, h⟩ := bind_eq_ok.1 h
  exact ⟨pos, bestMask (moduleCount s.ver).toNat s.ver.toNat pos s.cw, hpos, (Except.ok.inj h).symm⟩

end Sys2Proof.Machine

/-! SUPPORT. Which command writes which register, and that a recoverable error repeats (10_state.md, 60_exceptions.md R224). -/

namespace Sys2Proof.Machine

/-- Settles O14: the error wrote `ERR` alone, which no command reads. -/
theorem recoverableErrorsRepeatUntilTheStateChanges : Obligations.RecoverableErrorsRepeatUntilTheStateChanges := by
  intro i s t e hs h he hrec
  have ht : t = { s with err := .failed e } := by rw [eq_raise_of_failed hs h he, raise_of_recoverable hrec]
  rw [ht, exec_of_err i hs, h, ht]

/-- Settles O16: a discarded command and a raised error write none of these, and an effect writes what its rule lists. -/
theorem onlyItsWritersChangeARegister : Obligations.OnlyItsWritersChangeARegister := by
  intro i s t h
  obtain ⟨-, rfl⟩ | ⟨-, u, hu, rfl⟩ | ⟨-, e, -, rfl⟩ := exec_cases h
  · simp
  · cases i with
    | nop =>
      obtain rfl := hu
      simp
    | gexp _ | glog _ | maskq _ _ _ | mxpen | bchfmt _ | bchver _ | isdark _ _ | modcnt =>
      obtain ⟨v, rfl⟩ := hu
      simp
    | pclr r | ppush r _ =>
      obtain ⟨p, -, -, rfl⟩ := hu
      cases r <;> simp
    | pmul | rsgen _ =>
      obtain ⟨p, -, -, rfl⟩ := hu
      simp
    | pmod | dbrst | dbpush _ | plrst | plpush _ | rsenc _ | bbrst | bbput _ _ | bbenc =>
      obtain ⟨p, -, rfl⟩ := hu
      simp
    | split =>
      obtain ⟨cw, -, -, -, rfl⟩ := hu
      simp
    | vsel lvl =>
      obtain ⟨v, -, -, rfl⟩ := hu
      simp
    | setvl lvl v =>
      obtain ⟨-, -, rfl⟩ := hu
      simp
    | mxrst | mxrsv | mxfin =>
      obtain ⟨-, rfl⟩ := hu
      simp
    | mxpat =>
      obtain ⟨-, pos, -, rfl⟩ := hu
      simp
    | mxmap k =>
      obtain ⟨-, -, rfl⟩ := hu
      simp
    | mxbest =>
      obtain ⟨pos, best, -, rfl⟩ := runBestMask_eq_ok hu.2
      simp
    | gen lvl =>
      obtain ⟨ver, bb, cw, -, -, -, -, hbest⟩ := hu
      obtain ⟨pos, best, -, rfl⟩ := runBestMask_eq_ok hbest
      simp
  · simp

end Sys2Proof.Machine

/-! SUPPORT. The register and shape invariant (10_state.md section 4): every effect keeps it, so every step does. -/

namespace Sys2Proof.Machine

/-! ## Lookups that answer -/

theorem blockGroups_range {v : Nat} {lvl : Level} {g : List BlockGroup} (h : blockGroups v lvl = .ok g) : 1 ≤ v ∧ v ≤ 40 := by
  have hlen : rsBlockTable.length = 40 := by decide
  unfold blockGroups at h
  split at h
  · cases h
  · rename_i hv
    split at h
    · cases h
    · rename_i hrow
      have := (List.getElem?_eq_some_iff.1 hrow).1
      omega

/-- A lookup of `DataCw` answers for the versions 1 to 40 alone, with the entry of the table. -/
theorem dataCw_eq_ok {v d : Nat} {lvl : Level} (h : dataCw v lvl = .ok d) : 1 ≤ v ∧ v ≤ 40 ∧ d = tableData v lvl := by
  obtain ⟨bs, hbs, -⟩ := bind_eq_ok.1 h
  obtain ⟨g, hg, -⟩ := bind_eq_ok.1 hbs
  obtain ⟨h1, h2⟩ := blockGroups_range hg
  exact ⟨h1, h2, Except.ok.inj (h.symm.trans (dataCw_eq_table lvl h1 h2))⟩

theorem alignPositions_range {v : Nat} {pos : List Nat} (h : alignPositions v = .ok pos) : 1 ≤ v ∧ v ≤ 40 := by
  have hlen : alignPosTable.length = 40 := by decide
  unfold alignPositions at h
  split at h
  · cases h
  · rename_i hv
    split at h
    · cases h
    · rename_i hrow
      have := (List.getElem?_eq_some_iff.1 hrow).1
      omega

/-- The largest symbol's bits and codewords are far below `LEN_MAX`. -/
theorem table_lengths_le (lvl : Level) : ∀ v ≤ 40, 8 * tableData v lvl ≤ lenMax ∧ tableTotal v lvl ≤ lenMax := by
  cases lvl <;> decide +kernel

theorem encodeData_length_le {payload : List Byte} {v : Nat} {lvl : Level} {bb : List Bool}
    (h : encodeData payload v lvl = .ok bb) : bb.length ≤ lenMax := by
  obtain ⟨d, hd, -⟩ := bind_eq_ok.1 h
  obtain ⟨-, h2, rfl⟩ := dataCw_eq_ok hd
  by_cases hover : 8 * tableData v lvl < 4 + lenBits v + 8 * payload.length
  · exact nomatch h.symm.trans ((encodeData_eq_error hd).2 ⟨rfl, hover⟩)
  · obtain ⟨bb', hbb', hlen⟩ := encodeData_ok hd (Nat.not_lt.1 hover)
    obtain rfl : bb = bb' := Except.ok.inj (h.symm.trans hbb')
    exact hlen ▸ (table_lengths_le lvl v h2).1

theorem finalCodewords_length_le {cfg : Config} {bits : List Bool} {v : Nat} {lvl : Level} {cw : List Byte}
    (h : finalCodewords cfg bits v lvl = .ok cw) (hd : dataCw v lvl = .ok (bits.length / 8)) (h8 : bits.length % 8 = 0) :
    cw.length ≤ lenMax := by
  obtain ⟨h1, h2, hlen⟩ := dataCw_eq_ok hd
  obtain ⟨cw', hcw', htotal⟩ := finalCodewords_ok cfg h1 h2 (bits := bits) (lvl := lvl) (by omega)
  obtain rfl : cw = cw' := Except.ok.inj (h.symm.trans hcw')
  exact htotal ▸ (table_lengths_le lvl v h2).2

/-! ## Registers -/

/-- Bit 7 of an error's code says whether it is fatal (60_exceptions.md R210). -/
theorem statusCode_getLsbD_seven (e : ErrorCode) : (statusCode (.failed e)).getLsbD 7 = isFatal e := by cases e <;> decide

theorem RegistersOk.succeed {u : State} (h : RegistersOk u) (hf : u.fault = false) : RegistersOk (succeed u) :=
  { h with err := by simp, fault := by simp [hf, statusCode] }

theorem RegistersOk.raise {s : State} {e : ErrorCode} (h : RegistersOk s) (hs : Accepting s) (he : e ≠ .invalidLookup) :
    RegistersOk (raise e s) :=
  { h with
    err := by simpa using he
    fault := by rw [raise_fault, raise_err, statusCode_getLsbD_seven, hs, Bool.false_or] }

theorem RegistersOk.writePoly {s : State} (h : RegistersOk s) (r : PolyReg) {p : Poly} (hp : Canonical p)
    (hlen : p.length ≤ lenMax) : RegistersOk (writePoly r p s) := by
  cases r with
  | pa => exact { h with pa := hp, paLen := hlen }
  | pb => exact { h with pb := hp, pbLen := hlen }
  | pr => exact { h with pr := hp, prLen := hlen }

theorem RegistersOk.runBestMask {s u : State} (h : RegistersOk s) (hu : runBestMask s = .ok u) : RegistersOk u := by
  obtain ⟨pos, best, -, rfl⟩ := runBestMask_eq_ok hu
  exact { h with }

/-- Every effect keeps the register invariant. -/
theorem registers_of_effect {i : Instr} {s u : State} (h : RegistersOk s) (hu : Effect i s u) : RegistersOk u := by
  cases i with
  | nop =>
    obtain rfl := hu
    exact h
  | gexp _ | glog _ | maskq _ _ _ | mxpen | bchfmt _ | bchver _ | isdark _ _ | modcnt =>
    obtain ⟨v, rfl⟩ := hu
    exact { h with }
  | pclr r | ppush r _ =>
    obtain ⟨p, hp, hlen, rfl⟩ := hu
    exact h.writePoly r hp hlen
  | pmul | rsgen _ =>
    obtain ⟨p, hp, hlen, rfl⟩ := hu
    exact h.writePoly .pr hp hlen
  | pmod =>
    obtain ⟨p, hp, rfl⟩ := hu
    obtain ⟨hcan, hlen⟩ := polyMod_result h.pa hp
    exact h.writePoly .pr hcan (hlen.trans h.paLen)
  | dbrst | dbpush _ =>
    obtain ⟨db, hlen, rfl⟩ := hu
    exact { h with dbLen := hlen }
  | plrst | plpush _ =>
    obtain ⟨p, hlen, rfl⟩ := hu
    exact { h with payloadLen := hlen }
  | rsenc ec =>
    obtain ⟨e, hlen, rfl⟩ := hu
    exact { h with ecbLen := by rw [hlen]; bv_omega }
  | bbrst | bbput _ _ =>
    obtain ⟨bb, hlen, rfl⟩ := hu
    exact { h with bbLen := hlen }
  | bbenc =>
    obtain ⟨bb, hbb, rfl⟩ := hu
    exact { h with bbLen := encodeData_length_le hbb }
  | split =>
    obtain ⟨cw, hcw, hd, h8, rfl⟩ := hu
    exact { h with cwLen := finalCodewords_length_le hcw hd h8 }
  | vsel lvl =>
    obtain ⟨v, h1, h2, rfl⟩ := hu
    exact { h with ver := by simpa using (Nat.mod_le v 64).trans h2 }
  | setvl lvl v =>
    obtain ⟨h1, h2, rfl⟩ := hu
    exact { h with ver := by simpa using (Nat.mod_le v.toNat 64).trans h2 }
  | mxrst | mxrsv | mxfin =>
    obtain ⟨-, rfl⟩ := hu
    exact { h with }
  | mxpat =>
    obtain ⟨-, pos, -, rfl⟩ := hu
    exact { h with }
  | mxmap k =>
    obtain ⟨-, -, rfl⟩ := hu
    exact { h with }
  | mxbest => exact h.runBestMask hu.2
  | gen lvl =>
    obtain ⟨ver, bb, cw, h1, h2, hbb, hcw, hbest⟩ := hu
    obtain ⟨hbits, htotal⟩ := table_lengths_le lvl ver.toNat h2
    refine RegistersOk.runBestMask ?_ hbest
    exact { h with ver := h2, bbLen := by rwa [hbb], cwLen := by rwa [hcw] }

/-! ## The symbol: version, level, mask and matrix -/

/-- What an effect does to `VER`, `ECL`, `MASK`, `N`, `STAGE` and `MX` (46_matrix.md R145). -/
inductive SymbolMove (s u : State) : Prop
  /-- None of the six is written. -/
  | kept (ver : u.ver = s.ver) (ecl : u.ecl = s.ecl) (mask : u.mask = s.mask) (n : u.n = s.n) (stage : u.stage = s.stage)
      (mx : u.mx = s.mx)
  /-- The matrix is discarded. -/
  | discarded (stage : u.stage = .none) (n : u.n = 0#8) (mx : u.mx = [])
  /-- `MXRST`. -/
  | restarted (hver : s.ver ≠ 0#6) (ver : u.ver = s.ver) (n : u.n = moduleCount s.ver) (stage : u.stage = .empty)
      (mx : u.mx = unsetGrid (moduleCount s.ver).toNat)
  /-- `MXPAT`. -/
  | patterned (pos : List Nat) (hstage : s.stage = .empty) (hpos : alignPositions s.ver.toNat = .ok pos) (ver : u.ver = s.ver)
      (n : u.n = s.n) (stage : u.stage = .patterns) (mx : u.mx = placePatterns s.n.toNat pos s.mx)
  /-- `MXRSV`. -/
  | reserved (hstage : s.stage = .patterns) (ver : u.ver = s.ver) (n : u.n = s.n) (stage : u.stage = .reserved)
      (mx : u.mx = reserveMeta s.n.toNat s.ver.toNat s.mx)
  /-- `MXMAP`. -/
  | mapped (k : BitVec 3) (hstage : s.stage = .reserved) (ver : u.ver = s.ver) (n : u.n = s.n) (stage : u.stage = .mapped)
      (mx : u.mx = mapData s.n.toNat s.cw k s.mx)
  /-- `MXFIN`. -/
  | finished (hstage : s.stage = .mapped) (ver : u.ver = s.ver) (ecl : u.ecl = s.ecl) (mask : u.mask = s.mask) (n : u.n = s.n)
      (stage : u.stage = .final) (mx : u.mx = writeMeta s.n.toNat s.ecl s.mask s.ver s.mx)
  /-- `MXBEST` and `GEN`: a whole symbol of the version that is then selected. -/
  | built (pos : List Nat) (hpos : alignPositions u.ver.toNat = .ok pos) (n : u.n = moduleCount u.ver)
      (stage : u.stage = .final) (mx : u.mx = buildFinal (moduleCount u.ver).toNat u.ver pos u.cw u.ecl u.mask)

theorem symbolMove_of_runBestMask {s r u : State} (h : runBestMask r = .ok u) : SymbolMove s u := by
  obtain ⟨pos, best, hpos, rfl⟩ := runBestMask_eq_ok h
  exact .built pos hpos (by dsimp only) (by dsimp only) (by dsimp only)

theorem symbolMove_of_effect {i : Instr} {s u : State} (hu : Effect i s u) : SymbolMove s u := by
  cases i with
  | nop =>
    obtain rfl := hu
    exact .kept rfl rfl rfl rfl rfl rfl
  | gexp _ | glog _ | maskq _ _ _ | mxpen | bchfmt _ | bchver _ | isdark _ _ | modcnt =>
    obtain ⟨v, rfl⟩ := hu
    exact .kept rfl rfl rfl rfl rfl rfl
  | pclr r | ppush r _ =>
    obtain ⟨p, -, -, rfl⟩ := hu
    cases r <;> exact .kept rfl rfl rfl rfl rfl rfl
  | pmul | rsgen _ =>
    obtain ⟨p, -, -, rfl⟩ := hu
    exact .kept rfl rfl rfl rfl rfl rfl
  | pmod | dbrst | dbpush _ | plrst | plpush _ | rsenc _ | bbrst | bbput _ _ | bbenc =>
    obtain ⟨p, -, rfl⟩ := hu
    exact .kept rfl rfl rfl rfl rfl rfl
  | split =>
    obtain ⟨cw, -, -, -, rfl⟩ := hu
    exact .kept rfl rfl rfl rfl rfl rfl
  | vsel lvl =>
    obtain ⟨v, -, -, rfl⟩ := hu
    exact .discarded rfl rfl rfl
  | setvl lvl v =>
    obtain ⟨-, -, rfl⟩ := hu
    exact .discarded rfl rfl rfl
  | mxrst =>
    obtain ⟨hver, rfl⟩ := hu
    exact .restarted hver rfl rfl rfl rfl
  | mxpat =>
    obtain ⟨hstage, pos, hpos, rfl⟩ := hu
    exact .patterned pos hstage hpos rfl rfl rfl rfl
  | mxrsv =>
    obtain ⟨hstage, rfl⟩ := hu
    exact .reserved hstage rfl rfl rfl (by dsimp only)
  | mxmap k =>
    obtain ⟨hstage, -, rfl⟩ := hu
    exact .mapped (BitVec.ofNat 3 k.toNat) hstage rfl rfl rfl (by dsimp only)
  | mxfin =>
    obtain ⟨hstage, rfl⟩ := hu
    exact .finished hstage rfl rfl rfl rfl rfl (by dsimp only)
  | mxbest => exact symbolMove_of_runBestMask hu.2
  | gen lvl =>
    obtain ⟨ver, bb, cw, -, -, -, -, hbest⟩ := hu
    exact symbolMove_of_runBestMask hbest

/-- Every move keeps the shape of the matrix. -/
theorem shape_of_symbolMove {s u : State} (h : CoreOk s) (hu : SymbolMove s u) : ShapeOk u := by
  have hver : s.ver.toNat ≤ 40 := h.registers.ver
  have hsquare : Square s.n.toNat s.mx := h.shape.square
  have hside {st : Stage} (hs : s.stage = st) (hne : st ≠ .none) : s.ver ≠ 0#6 ∧ s.n.toNat = 4 * s.ver.toNat + 17 :=
    h.shape.side (hs ▸ hne)
  cases hu with
  | kept ver _ _ n stage mx =>
    exact ⟨by rw [n, mx]; exact hsquare, by rw [n, stage]; exact h.shape.noMatrix, by rw [n, ver, stage]; exact h.shape.side⟩
  | discarded stage n mx =>
    exact ⟨by rw [n, mx]; exact ⟨rfl, by simp⟩, fun _ => n, fun hne => absurd stage hne⟩
  | restarted hne ver n stage mx =>
    exact ⟨by rw [n, mx]; exact unsetGrid_square _, by simp [stage],
      fun _ => by rw [n, ver]; exact ⟨hne, moduleCount_toNat hver⟩⟩
  | patterned pos hs _ ver n stage mx =>
    exact ⟨by rw [n, mx]; exact placePatterns_square hsquare _ pos, by simp [stage],
      fun _ => by rw [ver, n]; exact hside hs (by decide)⟩
  | reserved hs ver n stage mx =>
    exact ⟨by rw [n, mx]; exact reserveMeta_square hsquare _ _, by simp [stage],
      fun _ => by rw [ver, n]; exact hside hs (by decide)⟩
  | mapped k hs ver n stage mx =>
    exact ⟨by rw [n, mx]; exact mapData_square hsquare _ _ k, by simp [stage],
      fun _ => by rw [ver, n]; exact hside hs (by decide)⟩
  | finished hs ver _ _ n stage mx =>
    exact ⟨by rw [n, mx]; exact writeMeta_square hsquare _ _ _ _, by simp [stage],
      fun _ => by rw [ver, n]; exact hside hs (by decide)⟩
  | built pos hpos n stage mx =>
    obtain ⟨h1, h2⟩ := alignPositions_range hpos
    refine ⟨by rw [n, mx]; exact buildFinal_square _ _ _ _ _ _, by simp [stage], fun _ => ⟨by bv_omega, ?_⟩⟩
    rw [n, moduleCount_toNat h2]

/-! ## Steps -/

theorem CoreOk.raise {s : State} {e : ErrorCode} (h : CoreOk s) (hs : Accepting s) (he : e ≠ .invalidLookup) :
    CoreOk (raise e s) := ⟨h.registers.raise hs he, { h.shape with }⟩

theorem CoreOk.popPort {s : State} (h : CoreOk s) (rest : List HostEvent) : CoreOk (popPort rest s) :=
  ⟨{ h.registers with }, { h.shape with }⟩

theorem coreOk_assertReset (s : State) : CoreOk (assertReset s) where
  registers := by constructor <;> simp [assertReset, State.reset, Canonical, statusCode]
  shape := ⟨⟨rfl, by simp [assertReset, State.reset]⟩, fun _ => rfl, fun h => absurd rfl h⟩

/-- A command never raises `InvalidLookup` in a state of the invariant (60_exceptions.md R216). -/
theorem ne_invalidLookup_of_raises {i : Instr} {s : State} {e : ErrorCode} (h : CoreOk s) (hs : Accepting s)
    (hr : Raises i s e) : e ≠ .invalidLookup := by
  obtain rfl | ⟨rfl, -⟩ | ⟨rfl, -⟩ | ⟨rfl, -⟩ | ⟨rfl, -⟩ :=
    errorsComeFromTheirCommandsAndConditions.1 i s (raise e s) e h hs hr rfl <;> decide

/-- A property of states that every event and every move of the symbol keeps, with the register and shape invariant. -/
structure Kept (P : State → Prop) : Prop where
  core : ∀ s, P s → CoreOk s
  reset : ∀ s, P s → P (assertReset s)
  popPort : ∀ s rest, P s → P (popPort rest s)
  raise : ∀ s e, P s → CoreOk (raise e s) → P (raise e s)
  move : ∀ s u, P s → CoreOk (succeed u) → SymbolMove s u → P (succeed u)

theorem Kept.exec {P : State → Prop} (hP : Kept P) {i : Instr} {s t : State} (h : P s) (ht : exec i s = .next t) : P t := by
  have hcore := hP.core s h
  obtain ⟨-, rfl⟩ | ⟨hs, u, hu, rfl⟩ | ⟨hs, e, hr, rfl⟩ := exec_cases ht
  · exact h
  · have haccept : Accepting (succeed u) := accepting_of_completes hs ht rfl
    have hmove := symbolMove_of_effect hu
    have hregs := (registers_of_effect hcore.registers hu).succeed haccept
    exact hP.move s u h ⟨hregs, { shape_of_symbolMove hcore hmove with }⟩ hmove
  · exact hP.raise s e h (hcore.raise hs (ne_invalidLookup_of_raises hcore hs hr))

/-- Such a property holds after every step from a state of which it holds. -/
theorem Kept.step {P : State → Prop} (hP : Kept P) {s t : State} (h : P s) (ht : step s = .next t) : P t := by
  obtain ⟨-, rfl⟩ | ⟨rest, -, rfl⟩ | ⟨_, rest, -, -, rfl⟩ | ⟨_, rest, e, -, hf, -, rfl⟩ | ⟨_, rest, i, -, -, -, hi⟩ :=
    step_cases ht
  · exact h
  · exact hP.reset _ (hP.popPort s rest h)
  · exact hP.popPort s rest h
  · have hpop := hP.popPort s rest h
    exact hP.raise _ _ hpop ((hP.core _ hpop).raise hf (by decide))
  · exact hP.exec (hP.popPort s rest h) hi

theorem kept_coreOk : Kept CoreOk where
  core _ h := h
  reset s _ := coreOk_assertReset s
  popPort _ rest h := h.popPort rest
  raise _ _ _ h := h
  move _ _ _ h _ := h

/-- Settles O57: registers by the effects, shape by the moves of the symbol. -/
theorem stepKeepsRegistersAndShape : Obligations.StepKeepsRegistersAndShape := fun _ _ h ht => kept_coreOk.step h ht

end Sys2Proof.Machine

/-! SUPPORT. Lists of cell writes, and the metadata cells (46_matrix.md R152 to R156, R160, R161). -/

namespace Sys2Proof.Machine

/-! ## Lists of cell writes -/

theorem setCells_cons (g : Grid) (w : Nat × Nat × Cell) (ws : List (Nat × Nat × Cell)) :
    setCells g (w :: ws) = setCells (setCell g w.1 w.2.1 w.2.2) ws := rfl

theorem setCells_append (g : Grid) (ws ws' : List (Nat × Nat × Cell)) :
    setCells g (ws ++ ws') = setCells (setCells g ws) ws' := List.foldl_append

/-- A cell that a list of writes names reads as one of its writes says. -/
theorem getCell_setCells_named {n row col : Nat} (hr : row < n) (hc : col < n) :
    ∀ {writes : List (Nat × Nat × Cell)} {g : Grid}, Square n g → (∃ w ∈ writes, w.1 = row ∧ w.2.1 = col) →
      ∃ w ∈ writes, w.1 = row ∧ w.2.1 = col ∧ getCell (setCells g writes) row col = w.2.2
  | [], _, _, h => by simp at h
  | w :: ws, g, hg, h => by
    rw [setCells_cons]
    by_cases hlater : ∃ w' ∈ ws, w'.1 = row ∧ w'.2.1 = col
    · obtain ⟨w', hw', hread⟩ := getCell_setCells_named hr hc (setCell_square hg w.1 w.2.1 w.2.2) hlater
      exact ⟨w', List.mem_cons_of_mem w hw', hread⟩
    · obtain ⟨h1, h2⟩ : w.1 = row ∧ w.2.1 = col := by
        obtain ⟨w', hw', hname⟩ := h
        obtain rfl | hw' := List.mem_cons.1 hw'
        · exact hname
        · exact absurd ⟨w', hw', hname⟩ hlater
      refine ⟨w, List.mem_cons_self, h1, h2, ?_⟩
      rw [getCell_setCells_other ws, h1, h2, getCell_setCell_same hg hr hc]
      intro w' hw'
      by_contra hsame
      exact hlater ⟨w', hw', by omega, by omega⟩

/-- Writes that all agree with one assignment of values: a cell that they name reads as it says. -/
theorem getCell_setCells_of_agree {n row col : Nat} (hr : row < n) (hc : col < n) {val : Nat → Nat → Cell}
    {writes : List (Nat × Nat × Cell)} {g : Grid} (hg : Square n g) (hval : ∀ w ∈ writes, w.2.2 = val w.1 w.2.1)
    (h : ∃ w ∈ writes, w.1 = row ∧ w.2.1 = col) : getCell (setCells g writes) row col = val row col := by
  obtain ⟨w, hw, rfl, rfl, hread⟩ := getCell_setCells_named hr hc hg h
  rw [hread, hval w hw]

/-! ## The metadata writes -/

theorem mem_metaWrites {n v : Nat} {f : Nat → Cell} {dm : Cell} {b : Nat → Cell} {w : Nat × Nat × Cell} :
    w ∈ metaWrites n v f dm b ↔
      (∃ i < 15, ((w.1, w.2.1) = fmtCellA n i ∨ (w.1, w.2.1) = fmtCellB n i) ∧ w.2.2 = f i) ∨
      ((w.1, w.2.1) = (n - 8, 8) ∧ w.2.2 = dm) ∨
      (7 ≤ v ∧ ∃ i < 18, ((w.1, w.2.1) = verCellA n i ∨ (w.1, w.2.1) = verCellB n i) ∧ w.2.2 = b i) := by
  obtain ⟨row, col, c⟩ := w
  have hfmt : (row, col, c) ∈ fmtWrites n f ↔
      ∃ i < 15, ((row, col) = fmtCellA n i ∨ (row, col) = fmtCellB n i) ∧ c = f i := by
    simp only [fmtWrites, List.mem_flatMap, List.mem_range, List.mem_cons, List.not_mem_nil, or_false, Prod.ext_iff]
    exact exists_congr fun i => and_congr_right fun _ => by tauto
  have hver : (row, col, c) ∈ verWrites n b ↔
      ∃ i < 18, ((row, col) = verCellA n i ∨ (row, col) = verCellB n i) ∧ c = b i := by
    simp only [verWrites, List.mem_flatMap, List.mem_range, List.mem_cons, List.not_mem_nil, or_false, Prod.ext_iff]
    exact exists_congr fun i => and_congr_right fun _ => by tauto
  rw [metaWrites, List.mem_append, List.mem_append, hfmt, or_assoc]
  refine or_congr_right (or_congr ?_ ?_)
  · simp [and_assoc]
  · split
    · rename_i h
      simp [hver, ge_iff_le.1 h]
    · rename_i h
      simp [Nat.not_le.1 h]

/-- The metadata writes name exactly the metadata cells. -/
theorem metaWrites_name_iff {n v row col : Nat} {f : Nat → Cell} {dm : Cell} {b : Nat → Cell} :
    (∃ w ∈ metaWrites n v f dm b, w.1 = row ∧ w.2.1 = col) ↔ IsMetadata n v row col := by
  constructor
  · rintro ⟨w, hw, rfl, rfl⟩
    obtain ⟨i, hi, hcell, -⟩ | ⟨hcell, -⟩ | ⟨hv, i, hi, hcell, -⟩ := mem_metaWrites.1 hw
    · exact .inl ⟨i, hi, hcell⟩
    · exact .inr (.inl hcell)
    · exact .inr (.inr ⟨hv, i, hi, hcell⟩)
  · rintro (⟨i, hi, hcell⟩ | hcell | ⟨hv, i, hi, hcell⟩)
    · exact ⟨(row, col, f i), mem_metaWrites.2 (.inl ⟨i, hi, hcell, rfl⟩), rfl, rfl⟩
    · exact ⟨(row, col, dm), mem_metaWrites.2 (.inr (.inl ⟨hcell, rfl⟩)), rfl, rfl⟩
    · exact ⟨(row, col, b i), mem_metaWrites.2 (.inr (.inr ⟨hv, i, hi, hcell, rfl⟩)), rfl, rfl⟩

/-- Where the metadata cells lie: in column 8, in row 8, or in a version block. -/
theorem IsMetadata.place {n v row col : Nat} (hn : 21 ≤ n) (hv : 7 ≤ v → 45 ≤ n) (h : IsMetadata n v row col) :
    row < n ∧ col < n ∧ ((col = 8 ∧ (row < 9 ∧ row ≠ 6 ∨ n - 8 ≤ row)) ∨ (row = 8 ∧ (col < 8 ∧ col ≠ 6 ∨ n - 8 ≤ col)) ∨
      (45 ≤ n ∧ (row < 6 ∧ n - 11 ≤ col ∧ col < n - 8 ∨ col < 6 ∧ n - 11 ≤ row ∧ row < n - 8))) := by
  obtain ⟨i, hi, hcell | hcell⟩ | hcell | ⟨h7, i, hi, hcell | hcell⟩ := h
  · unfold fmtCellA at hcell
    split_ifs at hcell <;> (obtain ⟨rfl, rfl⟩ := Prod.mk.inj hcell; omega)
  · unfold fmtCellB at hcell
    split_ifs at hcell <;> (obtain ⟨rfl, rfl⟩ := Prod.mk.inj hcell; omega)
  · obtain ⟨rfl, rfl⟩ := Prod.mk.inj hcell
    omega
  · obtain ⟨rfl, rfl⟩ := Prod.mk.inj hcell
    have := hv h7
    omega
  · obtain ⟨rfl, rfl⟩ := Prod.mk.inj hcell
    have := hv h7
    omega

/-- A cell that is no metadata cell keeps its value. -/
theorem getCell_metaWrites_other {n v row col : Nat} (h : ¬ IsMetadata n v row col) (f : Nat → Cell) (dm : Cell)
    (b : Nat → Cell) (g : Grid) : getCell (setCells g (metaWrites n v f dm b)) row col = getCell g row col := by
  refine getCell_setCells_other _ g fun w hw => ?_
  by_contra hsame
  exact h (metaWrites_name_iff.1 ⟨w, hw, by omega, by omega⟩)

/-- The value that the metadata writes give to a metadata cell, read off the place of the cell. -/
def metaValue (n : Nat) (f : Nat → Cell) (dm : Cell) (b : Nat → Cell) (row col : Nat) : Cell :=
  if row = n - 8 ∧ col = 8 then dm
  else if col = 8 then f (if row < 6 then row else if row < 9 then row - 1 else row + 15 - n)
  else if row = 8 then f (if col < 6 then 14 - col else if col < 8 then 8 else n - 1 - col)
  else if row < 6 then b (3 * row + (col + 11 - n)) else b (3 * col + (row + 11 - n))

section
variable {n : Nat} (hn : 21 ≤ n) (f : Nat → Cell) (dm : Cell) (b : Nat → Cell)
include hn

theorem metaValue_fmtCellA (i : Nat) : metaValue n f dm b (fmtCellA n i).1 (fmtCellA n i).2 = f i := by
  grind [metaValue, fmtCellA]

theorem metaValue_fmtCellB {i : Nat} (hi : i < 15) : metaValue n f dm b (fmtCellB n i).1 (fmtCellB n i).2 = f i := by
  grind [metaValue, fmtCellB]

omit hn

theorem metaValue_dark : metaValue n f dm b (n - 8) 8 = dm := by simp [metaValue]

theorem metaValue_verCellA (hv : 45 ≤ n) {i : Nat} (hi : i < 18) :
    metaValue n f dm b (verCellA n i).1 (verCellA n i).2 = b i := by
  grind [metaValue, verCellA]

theorem metaValue_verCellB (hv : 45 ≤ n) {i : Nat} (hi : i < 18) :
    metaValue n f dm b (verCellB n i).1 (verCellB n i).2 = b i := by
  grind [metaValue, verCellB]

/-- A metadata cell reads as its place says, whatever it was before: no two writes of one cell differ. -/
theorem getCell_metaWrites {v row col : Nat} {g : Grid} (hn : 21 ≤ n) (hv : 7 ≤ v → 45 ≤ n) (hg : Square n g)
    (h : IsMetadata n v row col) : getCell (setCells g (metaWrites n v f dm b)) row col = metaValue n f dm b row col := by
  obtain ⟨hr, hc, -⟩ := h.place hn hv
  refine getCell_setCells_of_agree hr hc hg (fun w hw => ?_) (metaWrites_name_iff.2 h)
  obtain ⟨i, hi, hcell | hcell, hval⟩ | ⟨hcell, hval⟩ | ⟨h7, i, hi, hcell | hcell, hval⟩ := mem_metaWrites.1 hw
  · rw [hval, ← metaValue_fmtCellA hn f dm b i, ← hcell]
  · rw [hval, ← metaValue_fmtCellB hn f dm b hi, ← hcell]
  · obtain ⟨h1, h2⟩ := Prod.mk.inj hcell
    rw [hval, h1, h2, metaValue_dark]
  · rw [hval, ← metaValue_verCellA f dm b (hv h7) hi, ← hcell]
  · rw [hval, ← metaValue_verCellB f dm b (hv h7) hi, ← hcell]

end

/-! ## Reserving and writing the metadata -/

/-- `N` and `VER` of a state with a matrix (46_matrix.md R146). -/
theorem CoreOk.side {s : State} (h : CoreOk s) (hs : s.stage ≠ .none) :
    1 ≤ s.ver.toNat ∧ s.ver.toNat ≤ 40 ∧ s.n.toNat = 4 * s.ver.toNat + 17 :=
  ⟨one_le_toNat (h.shape.side hs).1, h.registers.ver, (h.shape.side hs).2⟩

/-- The metadata cells of the grid carry level, mask and version (46_matrix.md R160). -/
def Carries (n : Nat) (lvl : Level) (k : BitVec 3) (v : BitVec 6) (g : Grid) : Prop :=
  (∀ i < 15,
    getCell g (fmtCellA n i).1 (fmtCellA n i).2 = cellOfBool ((bchFormat (formatData lvl k)).getLsbD i) ∧
    getCell g (fmtCellB n i).1 (fmtCellB n i).2 = cellOfBool ((bchFormat (formatData lvl k)).getLsbD i)) ∧
  getCell g (n - 8) 8 = .dark ∧
  (7 ≤ v.toNat → ∀ i < 18,
    getCell g (verCellA n i).1 (verCellA n i).2 = cellOfBool ((bchVersion v).getLsbD i) ∧
    getCell g (verCellB n i).1 (verCellB n i).2 = cellOfBool ((bchVersion v).getLsbD i))

theorem metadataOk_iff {s : State} :
    MetadataOk s ↔ CoreOk s ∧ (s.stage = .final → Carries s.n.toNat s.ecl s.mask s.ver s.mx) :=
  ⟨fun h => ⟨h.core, fun hs => ⟨h.format hs, h.darkModule hs, h.version hs⟩⟩, fun h =>
    ⟨h.1, fun hs => (h.2 hs).1, fun hs => (h.2 hs).2.1, fun hs => (h.2 hs).2.2⟩⟩

section
variable {n : Nat} {v : BitVec 6} (hn : n = 4 * v.toNat + 17) (h1 : 1 ≤ v.toNat) {g : Grid} (hg : Square n g)
include hn h1 hg

theorem getCell_reserveMeta {row col : Nat} (h : IsMetadata n v.toNat row col) :
    getCell (reserveMeta n v.toNat g) row col = .light := by
  rw [reserveMeta, getCell_metaWrites _ _ _ (by omega) (by omega) hg h]
  simp [metaValue]

theorem writeMeta_carries (lvl : Level) (k : BitVec 3) : Carries n lvl k v (writeMeta n lvl k v g) := by
  have hn21 : 21 ≤ n := by omega
  have hread (cell : Nat × Nat) (h : IsMetadata n v.toNat cell.1 cell.2) := getCell_metaWrites
    (fun i => cellOfBool ((bchFormat (formatData lvl k)).getLsbD i)) .dark (fun i => cellOfBool ((bchVersion v).getLsbD i))
    hn21 (by omega) hg h
  refine ⟨fun i hi => ⟨?_, ?_⟩, ?_, fun h7 i hi => ⟨?_, ?_⟩⟩ <;> rw [writeMeta]
  · rw [hread (fmtCellA n i) (.inl ⟨i, hi, .inl rfl⟩), metaValue_fmtCellA hn21]
  · rw [hread (fmtCellB n i) (.inl ⟨i, hi, .inr rfl⟩), metaValue_fmtCellB hn21 _ _ _ hi]
  · rw [hread (n - 8, 8) (.inr (.inl rfl)), metaValue_dark]
  · rw [hread (verCellA n i) (.inr (.inr ⟨h7, i, hi, .inl rfl⟩)), metaValue_verCellA _ _ _ (by omega) hi]
  · rw [hread (verCellB n i) (.inr (.inr ⟨h7, i, hi, .inr rfl⟩)), metaValue_verCellB _ _ _ (by omega) hi]

end

theorem getCell_reserveMeta_other {n v row col : Nat} (h : ¬ IsMetadata n v row col) (g : Grid) :
    getCell (reserveMeta n v g) row col = getCell g row col := getCell_metaWrites_other h _ _ _ g

theorem getCell_writeMeta_other {n row col : Nat} {v : BitVec 6} (h : ¬ IsMetadata n v.toNat row col) (lvl : Level)
    (k : BitVec 3) (g : Grid) : getCell (writeMeta n lvl k v g) row col = getCell g row col :=
  getCell_metaWrites_other h _ _ _ g

/-! ## `MXRSV` and `MXFIN` -/

theorem requireStage_of_mem {allowed : List Stage} {s : State} (h : s.stage ∈ allowed) : requireStage allowed s = .ok () :=
  requireStage_eq_ok.2 h

theorem exec_mxrsv_of_stage {s : State} (hs : Accepting s) (hstage : s.stage = .patterns) :
    exec .mxrsv s = .next { s with mx := reserveMeta s.n.toNat s.ver.toNat s.mx, stage := .reserved, err := .ok } := by
  simp only [exec, execMxrsv, requireStage_of_mem (List.mem_singleton.2 hstage), ok_bind, pure_eq_ok, command_ok hs,
    succeed]

theorem exec_mxfin_of_stage {s : State} (hs : Accepting s) (hstage : s.stage = .mapped) :
    exec .mxfin s = .next { s with mx := writeMeta s.n.toNat s.ecl s.mask s.ver s.mx, stage := .final, err := .ok } := by
  simp only [exec, execMxfin, requireStage_of_mem (List.mem_singleton.2 hstage), ok_bind, pure_eq_ok, command_ok hs,
    succeed]

/-- Settles O39: the placeholder writes name the metadata cells and no others. -/
theorem mxrsvPutsLightPlaceholdersOnMetadataCells : Obligations.MxrsvPutsLightPlaceholdersOnMetadataCells := by
  intro s hs hcore hstage
  obtain ⟨h1, -, hn⟩ := hcore.side (by simp [hstage])
  exact ⟨_, exec_mxrsv_of_stage hs hstage, reserveMeta_square hcore.shape.square _ _,
    fun row col h => getCell_reserveMeta hn h1 hcore.shape.square h, fun row col h => getCell_reserveMeta_other h _⟩

/-- Settles O43: the metadata writes name the metadata cells and no others, each with its bit. -/
theorem mxfinWritesTheMetadataBits : Obligations.MxfinWritesTheMetadataBits := by
  intro s hs hcore hstage
  obtain ⟨h1, -, hn⟩ := hcore.side (by simp [hstage])
  have hexec := exec_mxfin_of_stage hs hstage
  refine ⟨_, hexec, metadataOk_iff.2 ⟨kept_coreOk.exec hcore hexec, fun _ => ?_⟩, fun row col h => getCell_writeMeta_other h _ _ _⟩
  dsimp only
  exact writeMeta_carries hn h1 hcore.shape.square _ _

/-- Settles O60: only `MXFIN`, `MXBEST` and `GEN` enter stage FINAL, and each writes the metadata last. -/
theorem stepKeepsTheMetadataOfAFinishedSymbol : Obligations.StepKeepsTheMetadataOfAFinishedSymbol := by
  have hkept : Kept MetadataOk := by
    refine ⟨fun s h => h.core, fun s _ => ?_, fun s rest h => ?_, fun s e h hcore => ?_, fun s u h hcore hmove => ?_⟩
    · exact metadataOk_iff.2 ⟨coreOk_assertReset s, fun hs => nomatch hs⟩
    · exact metadataOk_iff.2 ⟨h.core.popPort rest, (metadataOk_iff.1 h).2⟩
    · exact metadataOk_iff.2 ⟨hcore, (metadataOk_iff.1 h).2⟩
    · refine metadataOk_iff.2 ⟨hcore, fun (hfinal : u.stage = .final) => ?_⟩
      cases hmove with
      | kept ver ecl mask n stage mx =>
        have hs : s.stage = .final := stage ▸ hfinal
        simpa only [succeed_n, succeed_ecl, succeed_mask, succeed_ver, succeed_mx, ver, ecl, mask, n, mx] using
          (metadataOk_iff.1 h).2 hs
      | finished hstage ver ecl mask n stage mx =>
        obtain ⟨h1, -, hn⟩ := h.core.side (by simp [hstage])
        simpa only [succeed_n, succeed_ecl, succeed_mask, succeed_ver, succeed_mx, ver, ecl, mask, n, mx] using
          writeMeta_carries hn h1 h.core.shape.square s.ecl s.mask
      | built pos hpos n stage mx =>
        obtain ⟨h1, h2⟩ := alignPositions_range hpos
        simpa only [succeed_n, succeed_ecl, succeed_mask, succeed_ver, succeed_mx, n, mx, buildFinal] using
          writeMeta_carries (moduleCount_toNat h2) h1 (buildTrial_square _ _ _ _ _) u.ecl u.mask
      | discarded stage | restarted _ _ _ stage | patterned _ _ _ _ _ stage | reserved _ _ _ stage
      | mapped _ _ _ _ stage => exact nomatch stage.symm.trans hfinal
  exact fun s t h ht => hkept.step h ht

end Sys2Proof.Machine

/-! SUPPORT. The structural patterns: finders, alignment patterns and timing lines (46_matrix.md R147 to R151). -/

namespace Sys2Proof.Machine

theorem getCell_outside {n row col : Nat} {g : Grid} (hg : Square n g) (h : ¬ (row < n ∧ col < n)) :
    getCell g row col = .unset := by
  unfold getCell
  cases hrow : g[row]? with
  | none => rfl
  | some cells =>
    obtain ⟨hlt, hcells⟩ := List.getElem?_eq_some_iff.1 hrow
    have hr : row < n := hg.1 ▸ hlt
    have hlen : cells.length = n := hg.2 cells (hcells ▸ List.getElem_mem hlt)
    have hcol : cells[col]? = none := List.getElem?_eq_none (by omega)
    simp [hcol]

/-! ## Finders -/

/-- The cells of the three finders with their separators. -/
def InFinder (n row col : Nat) : Prop :=
  (row < 8 ∧ col < 8) ∨ (n - 8 ≤ row ∧ row < n ∧ col < 8) ∨ (row < 8 ∧ n - 8 ≤ col ∧ col < n)

/-- The offset of a coordinate from the finder whose 7x7 block is on its side of the matrix. -/
def finderAxis (n p : Nat) : Int := if p < 8 then p else (p : Int) - (n - 7 : Nat)

/-- The value of a finder cell, read off its place. -/
def finderValue (n row col : Nat) : Cell := cellOfBool (finderDark (finderAxis n row) (finderAxis n col))

/-- The three finders with their separators stand. -/
def FindersStand (n : Nat) (g : Grid) : Prop := ∀ row col, InFinder n row col → getCell g row col = finderValue n row col

theorem mem_finderOffsets {r : Int} : r ∈ finderOffsets ↔ -1 ≤ r ∧ r ≤ 7 := by
  simp only [finderOffsets, List.mem_cons, List.not_mem_nil, or_false]
  omega

theorem finderWrite_eq_some {n r0 c0 : Nat} {r c : Int} {w : Nat × Nat × Cell} :
    finderWrite n r0 c0 r c = some w ↔
      (0 ≤ (r0 : Int) + r ∧ (r0 : Int) + r < n ∧ 0 ≤ (c0 : Int) + c ∧ (c0 : Int) + c < n) ∧
      w = (((r0 : Int) + r).toNat, ((c0 : Int) + c).toNat, cellOfBool (finderDark r c)) := by
  unfold finderWrite
  split
  · simp only [reduceCtorEq, false_iff]
    omega
  · rw [Option.some.injEq, eq_comm, iff_and_self]
    omega

theorem mem_finderWrites {n r0 c0 : Nat} {w : Nat × Nat × Cell} :
    w ∈ finderWrites n r0 c0 ↔ ∃ r ∈ finderOffsets, ∃ c ∈ finderOffsets, finderWrite n r0 c0 r c = some w := by
  simp [finderWrites]

/-- The corner of a finder's 7x7 block (46_matrix.md R147). -/
def FinderCorner (n r0 c0 : Nat) : Prop := (r0 = 0 ∧ c0 = 0) ∨ (r0 = n - 7 ∧ c0 = 0) ∨ (r0 = 0 ∧ c0 = n - 7)

theorem finderAxis_of_offset {n r0 : Nat} {r : Int} (hn : 21 ≤ n) (h0 : r0 = 0 ∨ r0 = n - 7) (hr : -1 ≤ r ∧ r ≤ 7)
    (h : 0 ≤ (r0 : Int) + r ∧ (r0 : Int) + r < n) : finderAxis n ((r0 : Int) + r).toNat = r := by
  unfold finderAxis
  split <;> omega

/-- A cell of a finder lies in the finders' cells and has the value of its offsets. -/
theorem finder_cell {n r0 c0 : Nat} {r c : Int} (hn : 21 ≤ n) (h0 : FinderCorner n r0 c0) (hr : r ∈ finderOffsets)
    (hc : c ∈ finderOffsets)
    (h : 0 ≤ (r0 : Int) + r ∧ (r0 : Int) + r < n ∧ 0 ≤ (c0 : Int) + c ∧ (c0 : Int) + c < n) :
    InFinder n ((r0 : Int) + r).toNat ((c0 : Int) + c).toNat ∧
    finderValue n ((r0 : Int) + r).toNat ((c0 : Int) + c).toNat = cellOfBool (finderDark r c) := by
  have hr' := mem_finderOffsets.1 hr
  have hc' := mem_finderOffsets.1 hc
  unfold FinderCorner at h0
  constructor
  · unfold InFinder
    omega
  · rw [finderValue, finderAxis_of_offset hn (by omega) hr' (by omega), finderAxis_of_offset hn (by omega) hc' (by omega)]

theorem finderAt_of_stand {n r0 c0 : Nat} {g : Grid} (hn : 21 ≤ n) (h0 : FinderCorner n r0 c0) (h : FindersStand n g) :
    FinderAt n r0 c0 g := by
  intro r hr c hc hin
  obtain ⟨hfinder, hval⟩ := finder_cell hn h0 hr hc hin
  rw [h _ _ hfinder, hval]

/-- Every cell of the finders belongs to one of them. -/
theorem exists_offset_of_inFinder {n row col : Nat} (hn : 21 ≤ n) (h : InFinder n row col) :
    ∃ r0 c0, FinderCorner n r0 c0 ∧ ∃ r ∈ finderOffsets, ∃ c ∈ finderOffsets,
      row = ((r0 : Int) + r).toNat ∧ col = ((c0 : Int) + c).toNat ∧
      0 ≤ (r0 : Int) + r ∧ (r0 : Int) + r < n ∧ 0 ≤ (c0 : Int) + c ∧ (c0 : Int) + c < n := by
  obtain ⟨hr, hc⟩ | ⟨hr, hr', hc⟩ | ⟨hr, hc, hc'⟩ := h
  · exact ⟨0, 0, .inl ⟨rfl, rfl⟩, row, mem_finderOffsets.2 (by omega), col, mem_finderOffsets.2 (by omega),
      by omega, by omega, by omega⟩
  · exact ⟨n - 7, 0, .inr (.inl ⟨rfl, rfl⟩), row - (n - 7 : Nat), mem_finderOffsets.2 (by omega), col,
      mem_finderOffsets.2 (by omega), by omega, by omega, by omega⟩
  · exact ⟨0, n - 7, .inr (.inr ⟨rfl, rfl⟩), row, mem_finderOffsets.2 (by omega), col - (n - 7 : Nat),
      mem_finderOffsets.2 (by omega), by omega, by omega, by omega⟩

theorem stand_iff_finderAt {n : Nat} {g : Grid} (hn : 21 ≤ n) :
    FindersStand n g ↔ FinderAt n 0 0 g ∧ FinderAt n (n - 7) 0 g ∧ FinderAt n 0 (n - 7) g := by
  constructor
  · exact fun h => ⟨finderAt_of_stand hn (.inl ⟨rfl, rfl⟩) h, finderAt_of_stand hn (.inr (.inl ⟨rfl, rfl⟩)) h,
      finderAt_of_stand hn (.inr (.inr ⟨rfl, rfl⟩)) h⟩
  · rintro ⟨h1, h2, h3⟩ row col hin
    obtain ⟨r0, c0, h0, r, hr, c, hc, rfl, rfl, hrange⟩ := exists_offset_of_inFinder hn hin
    rw [(finder_cell hn h0 hr hc hrange).2]
    obtain ⟨rfl, rfl⟩ | ⟨rfl, rfl⟩ | ⟨rfl, rfl⟩ := h0
    · exact h1 r hr c hc hrange
    · exact h2 r hr c hc hrange
    · exact h3 r hr c hc hrange

/-- A write of the finders: some offset of one of the three. -/
theorem mem_placeFinders_writes {n : Nat} {w : Nat × Nat × Cell} :
    w ∈ finderWrites n 0 0 ++ finderWrites n (n - 7) 0 ++ finderWrites n 0 (n - 7) ↔
      ∃ r0 c0, FinderCorner n r0 c0 ∧ w ∈ finderWrites n r0 c0 := by
  simp only [List.mem_append, FinderCorner]
  constructor
  · rintro ((h | h) | h)
    · exact ⟨0, 0, by simp, h⟩
    · exact ⟨n - 7, 0, by simp, h⟩
    · exact ⟨0, n - 7, by simp, h⟩
  · rintro ⟨r0, c0, ⟨rfl, rfl⟩ | ⟨rfl, rfl⟩ | ⟨rfl, rfl⟩, h⟩ <;> simp [h]

/-- The writes of the finders name the finders' cells, each with its value. -/
theorem placeFinders_write {n : Nat} (hn : 21 ≤ n) {w : Nat × Nat × Cell}
    (hw : w ∈ finderWrites n 0 0 ++ finderWrites n (n - 7) 0 ++ finderWrites n 0 (n - 7)) :
    InFinder n w.1 w.2.1 ∧ w.2.2 = finderValue n w.1 w.2.1 := by
  obtain ⟨r0, c0, h0, hw⟩ := mem_placeFinders_writes.1 hw
  obtain ⟨r, hr, c, hc, hw⟩ := mem_finderWrites.1 hw
  obtain ⟨hrange, rfl⟩ := finderWrite_eq_some.1 hw
  obtain ⟨hin, hval⟩ := finder_cell hn h0 hr hc hrange
  exact ⟨hin, hval.symm⟩

theorem placeFinders_stand {n : Nat} {g : Grid} (hn : 21 ≤ n) (hg : Square n g) : FindersStand n (placeFinders n g) := by
  intro row col hin
  obtain ⟨r0, c0, h0, r, hr, c, hc, hrow, hcol, hrange⟩ := exists_offset_of_inFinder hn hin
  refine getCell_setCells_of_agree (by omega) (by omega) hg (fun w hw => (placeFinders_write hn hw).2)
    ⟨(row, col, cellOfBool (finderDark r c)), mem_placeFinders_writes.2 ⟨r0, c0, h0, mem_finderWrites.2
      ⟨r, hr, c, hc, finderWrite_eq_some.2 ⟨hrange, by rw [hrow, hcol]⟩⟩⟩, rfl, rfl⟩

theorem getCell_placeFinders_other {n row col : Nat} (hn : 21 ≤ n) (h : ¬ InFinder n row col) (g : Grid) :
    getCell (placeFinders n g) row col = getCell g row col := by
  refine getCell_setCells_other _ g fun w hw => ?_
  have hin := (placeFinders_write hn hw).1
  by_contra hsame
  rw [not_or, not_not, not_not] at hsame
  exact h (hsame.1 ▸ hsame.2 ▸ hin)

/-! ## Alignment patterns -/

/-- The table row of a version, empty for a version outside 1..40. -/
def tablePositions (v : Nat) : List Nat := (alignPositions v).toOption.getD []

theorem tablePositions_eq {v : Nat} {pos : List Nat} (h : alignPositions v = .ok pos) : tablePositions v = pos := by
  rw [tablePositions, h]
  rfl

/-- Every table value is 6, N - 7, or clear of the finders' rows and columns; and it is even (46_matrix.md R150). -/
theorem tablePositions_spec : ∀ v ≤ 40, ∀ p ∈ tablePositions v,
    (p = 6 ∨ p = 4 * v + 10 ∨ (10 ≤ p ∧ p ≤ 4 * v + 6)) ∧ p % 2 = 0 := by decide +kernel

/-- Two table values of a version are at least 5 apart, so no two patterns overlap. -/
theorem tablePositions_apart : ∀ v ≤ 40, ∀ p ∈ tablePositions v, ∀ q ∈ tablePositions v, p = q ∨ p + 5 ≤ q ∨ q + 5 ≤ p := by
  decide +kernel

/-- The cell lies in the 5x5 pattern centred at the anchor. -/
def Near (a : Nat × Nat) (row col : Nat) : Prop := a.1 ≤ row + 2 ∧ row ≤ a.1 + 2 ∧ a.2 ≤ col + 2 ∧ col ≤ a.2 + 2

theorem mem_alignOffsets {r : Int} : r ∈ alignOffsets ↔ -2 ≤ r ∧ r ≤ 2 := by
  simp only [alignOffsets, List.mem_cons, List.not_mem_nil, or_false]
  omega

/-- The value that the pattern centred at the anchor has in a cell. -/
def alignValue (a : Nat × Nat) (row col : Nat) : Cell := cellOfBool (alignDark ((row : Int) - a.1) ((col : Int) - a.2))

theorem mem_alignWrites {a : Nat × Nat} (h1 : 2 ≤ a.1) (h2 : 2 ≤ a.2) {w : Nat × Nat × Cell} :
    w ∈ alignWrites a.1 a.2 ↔ Near a w.1 w.2.1 ∧ w.2.2 = alignValue a w.1 w.2.1 := by
  simp only [alignWrites, List.mem_flatMap, List.mem_map, mem_alignOffsets, Near, alignValue]
  constructor
  · rintro ⟨r, hr, c, hc, rfl⟩
    dsimp only
    refine ⟨by omega, ?_⟩
    rw [show (((a.1 : Int) + r).toNat : Int) - a.1 = r by omega, show (((a.2 : Int) + c).toNat : Int) - a.2 = c by omega]
  · rintro ⟨hnear, hval⟩
    refine ⟨(w.1 : Int) - a.1, by omega, (w.2.1 : Int) - a.2, by omega, ?_⟩
    rw [← hval]
    refine Prod.ext (by dsimp only; omega) (Prod.ext (by dsimp only; omega) rfl)

theorem placeAnchor_of_assigned {g : Grid} {a : Nat × Nat} (h : getCell g a.1 a.2 ≠ .unset) : placeAnchor g a = g := if_neg h

theorem placeAnchor_square {n : Nat} {g : Grid} (hg : Square n g) (a : Nat × Nat) : Square n (placeAnchor g a) := by
  unfold placeAnchor
  split
  · exact setCells_square _ hg
  · exact hg

theorem getCell_placeAnchor_far {g : Grid} {a : Nat × Nat} {row col : Nat} (h1 : 2 ≤ a.1) (h2 : 2 ≤ a.2)
    (h : ¬ Near a row col) : getCell (placeAnchor g a) row col = getCell g row col := by
  unfold placeAnchor
  split
  · refine getCell_setCells_other _ g fun w hw => ?_
    by_contra hsame
    rw [not_or, not_not, not_not] at hsame
    exact h (hsame.1 ▸ hsame.2 ▸ ((mem_alignWrites h1 h2).1 hw).1)
  · rfl

theorem getCell_placeAnchor_near {n : Nat} {g : Grid} (hg : Square n g) {a : Nat × Nat} {row col : Nat} (h1 : 2 ≤ a.1)
    (h2 : 2 ≤ a.2) (hr : row < n) (hc : col < n) (hcentre : getCell g a.1 a.2 = .unset) (h : Near a row col) :
    getCell (placeAnchor g a) row col = alignValue a row col := by
  rw [placeAnchor, if_pos hcentre]
  exact getCell_setCells_of_agree hr hc hg (fun w hw => ((mem_alignWrites h1 h2).1 hw).2)
    ⟨(row, col, alignValue a row col), (mem_alignWrites h1 h2).2 ⟨h, rfl⟩, rfl, rfl⟩

/-- An anchor in a finder is skipped, for its cell is claimed (46_matrix.md R148). -/
theorem placeAnchor_of_inFinder {n : Nat} {g : Grid} (hstand : FindersStand n g) {a : Nat × Nat} (h : InFinder n a.1 a.2) :
    placeAnchor g a = g := placeAnchor_of_assigned (by rw [hstand _ _ h]; exact cellOfBool_ne_unset _)

/-- A fold keeps what each of its steps keeps. -/
theorem foldl_keeps {α β : Type} {P : β → Prop} {f : β → α → β} :
    ∀ {l : List α}, (∀ b, ∀ a ∈ l, P b → P (f b a)) → ∀ {b : β}, P b → P (l.foldl f b)
  | [], _, _, h => h
  | a :: _, hf, b, h => foldl_keeps (fun b' a' ha' => hf b' a' (List.mem_cons_of_mem a ha')) (hf b a List.mem_cons_self h)

/-- No cell lies in two patterns. -/
theorem anchors_apart {v : Nat} {pos : List Nat} (hpos : alignPositions v = .ok pos) {a b : Nat × Nat}
    (ha : a ∈ anchors pos) (hb : b ∈ anchors pos) {row col : Nat} (hna : Near a row col)
    (hnb : Near b row col) : a = b := by
  obtain ⟨-, h40⟩ := alignPositions_range hpos
  obtain ⟨row, hrow, ha⟩ := List.mem_flatMap.1 ha
  obtain ⟨col, hcol, rfl⟩ := List.mem_map.1 ha
  obtain ⟨row', hrow', hb⟩ := List.mem_flatMap.1 hb
  obtain ⟨col', hcol', rfl⟩ := List.mem_map.1 hb
  rw [← tablePositions_eq hpos] at hrow hcol hrow' hcol'
  have hr := tablePositions_apart v h40 row hrow row' hrow'
  have hc := tablePositions_apart v h40 col hcol col' hcol'
  unfold Near at hna hnb
  exact Prod.ext (by omega) (by omega)

section
variable {n v : Nat} {pos : List Nat} (hpos : alignPositions v = .ok pos) (hn : n = 4 * v + 17)
include hpos hn

/-- An anchor of a version: where each of its coordinates lies. -/
theorem anchor_place {a : Nat × Nat} (ha : a ∈ anchors pos) :
    (a.1 = 6 ∨ a.1 = n - 7 ∨ (10 ≤ a.1 ∧ a.1 + 11 ≤ n)) ∧ (a.2 = 6 ∨ a.2 = n - 7 ∨ (10 ≤ a.2 ∧ a.2 + 11 ≤ n)) ∧
    a.1 % 2 = 0 ∧ a.2 % 2 = 0 := by
  obtain ⟨-, h40⟩ := alignPositions_range hpos
  obtain ⟨row, hrow, ha⟩ := List.mem_flatMap.1 ha
  obtain ⟨col, hcol, rfl⟩ := List.mem_map.1 ha
  rw [← tablePositions_eq hpos] at hrow hcol
  have hr := tablePositions_spec v h40 row hrow
  have hc := tablePositions_spec v h40 col hcol
  dsimp only
  omega

theorem two_le_anchor {a : Nat × Nat} (ha : a ∈ anchors pos) : 2 ≤ a.1 ∧ 2 ≤ a.2 := by
  obtain ⟨-, h40⟩ := alignPositions_range hpos
  have := anchor_place hpos hn ha
  omega

/-- The pattern of an anchor off the finders lies in the matrix and touches no finder. -/
theorem near_of_free_anchor {a : Nat × Nat} (ha : a ∈ anchors pos) (hfree : ¬ InFinder n a.1 a.2) {row col : Nat}
    (h : Near a row col) : row < n ∧ col < n ∧ ¬ InFinder n row col := by
  obtain ⟨h1, h40⟩ := alignPositions_range hpos
  have := anchor_place hpos hn ha
  unfold InFinder at *
  unfold Near at h
  omega

theorem placeAnchor_stand {g : Grid} {a : Nat × Nat} (ha : a ∈ anchors pos) (hstand : FindersStand n g) :
    FindersStand n (placeAnchor g a) := by
  by_cases hfree : InFinder n a.1 a.2
  · rwa [placeAnchor_of_inFinder hstand hfree]
  · intro row col hin
    obtain ⟨h1, h2⟩ := two_le_anchor hpos hn ha
    rw [getCell_placeAnchor_far h1 h2 fun hnear => (near_of_free_anchor hpos hn ha hfree hnear).2.2 hin]
    exact hstand row col hin

theorem placeAlignment_stand {g : Grid} (hstand : FindersStand n g) : FindersStand n (placeAlignment pos g) :=
  foldl_keeps (fun _ _ ha h => placeAnchor_stand hpos hn ha h) hstand

end

/-! ## Timing lines -/

/-- Writes that each take place only while their cell is unset, done in order. -/
def fillCells (g : Grid) (writes : List (Nat × Nat × Cell)) : Grid :=
  writes.foldl (fun g' w => setIfUnset g' w.1 w.2.1 w.2.2) g

theorem fillCells_cons (g : Grid) (w : Nat × Nat × Cell) (ws : List (Nat × Nat × Cell)) :
    fillCells g (w :: ws) = fillCells (setIfUnset g w.1 w.2.1 w.2.2) ws := rfl

theorem getCell_setIfUnset_other (g : Grid) {row col row' col' : Nat} (h : row' ≠ row ∨ col' ≠ col) (v : Cell) :
    getCell (setIfUnset g row col v) row' col' = getCell g row' col' := by
  unfold setIfUnset
  split
  · exact getCell_setCell_other g h v
  · rfl

theorem getCell_setIfUnset_assigned {g : Grid} {row' col' : Nat} (h : getCell g row' col' ≠ .unset) (row col : Nat) (v : Cell) :
    getCell (setIfUnset g row col v) row' col' = getCell g row' col' := by
  by_cases hsame : row' = row ∧ col' = col
  · obtain ⟨rfl, rfl⟩ := hsame
    rw [setIfUnset, if_neg h]
  · exact getCell_setIfUnset_other g (by omega) v

theorem getCell_fillCells_assigned {row col : Nat} : ∀ (writes : List (Nat × Nat × Cell)) {g : Grid},
    getCell g row col ≠ .unset → getCell (fillCells g writes) row col = getCell g row col
  | [], _, _ => rfl
  | w :: ws, g, h => by
    have hstep := getCell_setIfUnset_assigned h w.1 w.2.1 w.2.2
    rw [fillCells_cons, getCell_fillCells_assigned ws (by rwa [hstep]), hstep]

theorem getCell_fillCells_other {row col : Nat} : ∀ (writes : List (Nat × Nat × Cell)) (g : Grid),
    (∀ w ∈ writes, row ≠ w.1 ∨ col ≠ w.2.1) → getCell (fillCells g writes) row col = getCell g row col
  | [], _, _ => rfl
  | w :: ws, g, h => by
    rw [fillCells_cons, getCell_fillCells_other ws _ fun w' hw' => h w' (List.mem_cons_of_mem w hw'),
      getCell_setIfUnset_other g (h w List.mem_cons_self)]

/-- An unset cell that such writes name reads as they say, where they agree and assign. -/
theorem getCell_fillCells_unset {n row col : Nat} (hr : row < n) (hc : col < n) {c : Cell} (hne : c ≠ .unset) :
    ∀ {writes : List (Nat × Nat × Cell)} {g : Grid}, Square n g → getCell g row col = .unset →
      (∀ w ∈ writes, w.1 = row → w.2.1 = col → w.2.2 = c) → (∃ w ∈ writes, w.1 = row ∧ w.2.1 = col) →
      getCell (fillCells g writes) row col = c
  | [], _, _, _, _, h => by simp at h
  | w :: ws, g, hg, hunset, hval, h => by
    rw [fillCells_cons]
    by_cases hsame : w.1 = row ∧ w.2.1 = col
    · obtain ⟨h1, h2⟩ := hsame
      have hstep : getCell (setIfUnset g w.1 w.2.1 w.2.2) row col = c := by
        rw [h1, h2, setIfUnset, if_pos hunset, getCell_setCell_same hg hr hc, hval w List.mem_cons_self h1 h2]
      rw [getCell_fillCells_assigned ws (by rwa [hstep]), hstep]
    · refine getCell_fillCells_unset hr hc hne (setIfUnset_square hg _ _ _) ?_
        (fun w' hw' => hval w' (List.mem_cons_of_mem w hw')) ?_
      · rwa [getCell_setIfUnset_other g (by omega)]
      · obtain ⟨w', hw', hname⟩ := h
        obtain rfl | hw' := List.mem_cons.1 hw'
        · exact absurd hname hsame
        · exact ⟨w', hw', hname⟩

/-- The writes of the two timing lines (46_matrix.md R149). -/
def timingWrites (n : Nat) : List (Nat × Nat × Cell) :=
  (timingSpan n).map (fun k => (k, 6, timingCell k)) ++ (timingSpan n).map (fun k => (6, k, timingCell k))

theorem placeTiming_eq_fillCells (n : Nat) (g : Grid) : placeTiming n g = fillCells g (timingWrites n) := by
  rw [placeTiming, fillCells, timingWrites, List.foldl_append, List.foldl_map, List.foldl_map]

theorem mem_timingSpan {n k : Nat} : k ∈ timingSpan n ↔ 8 ≤ k ∧ k < 8 + (n - 16) := by
  rw [timingSpan, List.mem_range'_1]

theorem mem_timingWrites {n : Nat} {w : Nat × Nat × Cell} :
    w ∈ timingWrites n ↔ ∃ k, (8 ≤ k ∧ k < 8 + (n - 16)) ∧ (w = (k, 6, timingCell k) ∨ w = (6, k, timingCell k)) := by
  simp only [timingWrites, List.mem_append, List.mem_map, mem_timingSpan, eq_comm (b := w)]
  constructor
  · rintro (⟨k, hk, rfl⟩ | ⟨k, hk, rfl⟩)
    · exact ⟨k, hk, .inl rfl⟩
    · exact ⟨k, hk, .inr rfl⟩
  · rintro ⟨k, hk, rfl | rfl⟩
    · exact .inl ⟨k, hk, rfl⟩
    · exact .inr ⟨k, hk, rfl⟩

theorem timingCell_ne_unset (k : Nat) : timingCell k ≠ .unset := cellOfBool_ne_unset _

theorem getCell_placeTiming_assigned {n row col : Nat} {g : Grid} (h : getCell g row col ≠ .unset) :
    getCell (placeTiming n g) row col = getCell g row col := by
  rw [placeTiming_eq_fillCells]
  exact getCell_fillCells_assigned _ h

theorem getCell_placeTiming_other {n row col : Nat} (hr : row ≠ 6) (hc : col ≠ 6) (g : Grid) :
    getCell (placeTiming n g) row col = getCell g row col := by
  rw [placeTiming_eq_fillCells]
  refine getCell_fillCells_other _ g fun w hw => ?_
  obtain ⟨k, -, rfl | rfl⟩ := mem_timingWrites.1 hw
  · exact .inr hc
  · exact .inl hr

/-- An unset cell of a timing line takes the value of its index. -/
theorem getCell_placeTiming_unset {n k row col : Nat} {g : Grid} (hg : Square n g) (hk : 8 ≤ k ∧ k + 9 ≤ n)
    (hline : (row = k ∧ col = 6) ∨ (row = 6 ∧ col = k)) (h : getCell g row col = .unset) :
    getCell (placeTiming n g) row col = timingCell k := by
  rw [placeTiming_eq_fillCells]
  refine getCell_fillCells_unset (by omega) (by omega) (timingCell_ne_unset k) hg h (fun w hw h1 h2 => ?_) ?_
  · obtain ⟨j, hj, rfl | rfl⟩ := mem_timingWrites.1 hw <;> dsimp only at h1 h2 ⊢ <;> congr 1 <;> omega
  · obtain ⟨rfl, rfl⟩ | ⟨rfl, rfl⟩ := hline
    · exact ⟨_, mem_timingWrites.2 ⟨row, by omega, .inl rfl⟩, rfl, rfl⟩
    · exact ⟨_, mem_timingWrites.2 ⟨col, by omega, .inr rfl⟩, rfl, rfl⟩

/-! ## The three together -/

section
variable {n v : Nat} {pos : List Nat} (hpos : alignPositions v = .ok pos) (hn : n = 4 * v + 17) {g : Grid} (hg : Square n g)
include hpos hn hg

theorem placePatterns_stand : FindersStand n (placePatterns n pos g) := by
  obtain ⟨h1, -⟩ := alignPositions_range hpos
  have hstand := placeAlignment_stand hpos hn (placeFinders_stand (by omega) hg)
  intro row col hin
  have hread := hstand row col hin
  rw [placePatterns, getCell_placeTiming_assigned (by rw [hread]; exact cellOfBool_ne_unset _), hread]

/-- Once the patterns stand, column 6 has no unset cell: finders at its ends, the timing line between them. -/
theorem placePatterns_column_six {row : Nat} (hr : row < n) : getCell (placePatterns n pos g) row 6 ≠ .unset := by
  obtain ⟨h1, -⟩ := alignPositions_range hpos
  by_cases hin : InFinder n row 6
  · rw [placePatterns_stand hpos hn hg row 6 hin]
    exact cellOfBool_ne_unset _
  · have hk : 8 ≤ row ∧ row + 9 ≤ n := by
      unfold InFinder at hin
      omega
    rw [placePatterns]
    have hg' := placeAlignment_square (placeFinders_square hg n) pos
    by_cases hunset : getCell (placeAlignment pos (placeFinders n g)) row 6 = .unset
    · rw [getCell_placeTiming_unset hg' hk (.inl ⟨rfl, rfl⟩) hunset]
      exact timingCell_ne_unset row
    · rwa [getCell_placeTiming_assigned hunset]

end

end Sys2Proof.Machine

/-! SUPPORT. The command `MXPAT`: the timing lines under alignment patterns, the patterns themselves, and the cells left unset
(46_matrix.md R148, R149, R151). -/

namespace Sys2Proof.Machine

/-! ## Timing lines and alignment patterns -/

/-- Along a centre line an alignment pattern is dark at even offsets, like a timing line. -/
theorem alignDark_centre_line {d : Int} (h : -2 ≤ d ∧ d ≤ 2) :
    alignDark d 0 = decide (d % 2 = 0) ∧ alignDark 0 d = decide (d % 2 = 0) := by
  have hd : d = -2 ∨ d = -1 ∨ d = 0 ∨ d = 1 ∨ d = 2 := by omega
  obtain rfl | rfl | rfl | rfl | rfl := hd <;> decide

/-- A cell of a timing line is unset or already has the value of its index. -/
def LineOpen (k : Nat) (c : Cell) : Prop := c = .unset ∨ c = timingCell k

theorem timingCell_eq (k : Nat) : timingCell k = cellOfBool (decide (k % 2 = 0)) := rfl

section
variable {n v : Nat} {pos : List Nat} (hpos : alignPositions v = .ok pos) (hn : n = 4 * v + 17)
include hpos hn

/-- A pattern that crosses a timing line does so along its centre, at an even index, and agrees with the line. -/
theorem alignValue_on_line {a : Nat × Nat} (ha : a ∈ anchors pos) {k row col : Nat}
    (hline : (row = k ∧ col = 6) ∨ (row = 6 ∧ col = k)) (h : Near a row col) : alignValue a row col = timingCell k := by
  have hplace := anchor_place hpos hn ha
  have h1 := (alignPositions_range hpos).1
  unfold Near at h
  rw [alignValue, timingCell_eq]
  congr 1
  obtain ⟨rfl, rfl⟩ | ⟨rfl, rfl⟩ := hline
  · rw [show ((6 : Nat) : Int) - a.2 = 0 by omega, (alignDark_centre_line (by omega)).1, decide_eq_decide]
    omega
  · rw [show ((6 : Nat) : Int) - a.1 = 0 by omega, (alignDark_centre_line (by omega)).2, decide_eq_decide]
    omega

theorem placeAnchor_line {g : Grid} (hg : Square n g) {a : Nat × Nat} (ha : a ∈ anchors pos) (hstand : FindersStand n g)
    {k row col : Nat} (hline : (row = k ∧ col = 6) ∨ (row = 6 ∧ col = k)) (h : LineOpen k (getCell g row col)) :
    LineOpen k (getCell (placeAnchor g a) row col) := by
  by_cases hfree : InFinder n a.1 a.2
  · rwa [placeAnchor_of_inFinder hstand hfree]
  obtain ⟨h1, h2⟩ := two_le_anchor hpos hn ha
  by_cases hnear : Near a row col
  · by_cases hcentre : getCell g a.1 a.2 = .unset
    · obtain ⟨hr, hc, -⟩ := near_of_free_anchor hpos hn ha hfree hnear
      rw [getCell_placeAnchor_near hg h1 h2 hr hc hcentre hnear, alignValue_on_line hpos hn ha hline hnear]
      exact .inr rfl
    · rwa [placeAnchor_of_assigned hcentre]
  · rwa [getCell_placeAnchor_far h1 h2 hnear]

/-- After `PlaceAlignment` a timing line's cell is still unset or has its value. -/
theorem placeAlignment_line {g : Grid} (hg : Square n g) (hstand : FindersStand n g) {k row col : Nat}
    (hline : (row = k ∧ col = 6) ∨ (row = 6 ∧ col = k)) (h : LineOpen k (getCell g row col)) :
    LineOpen k (getCell (placeAlignment pos g) row col) := by
  have hall : Square n (placeAlignment pos g) ∧ FindersStand n (placeAlignment pos g) ∧
      LineOpen k (getCell (placeAlignment pos g) row col) :=
    foldl_keeps (P := fun g => Square n g ∧ FindersStand n g ∧ LineOpen k (getCell g row col))
      (fun g a ha ⟨hg, hstand, h⟩ => ⟨placeAnchor_square hg a, placeAnchor_stand hpos hn ha hstand,
        placeAnchor_line hpos hn hg ha hstand hline h⟩) ⟨hg, hstand, h⟩
  exact hall.2.2

/-- Drawn on unset cells, the timing lines have their values over their whole length. -/
theorem placePatterns_timing {g : Grid} (hg : Square n g) {k row col : Nat} (hk : 8 ≤ k ∧ k + 9 ≤ n)
    (hline : (row = k ∧ col = 6) ∨ (row = 6 ∧ col = k)) (h : getCell g row col = .unset) :
    getCell (placePatterns n pos g) row col = timingCell k := by
  have h1 := (alignPositions_range hpos).1
  have hout : ¬ InFinder n row col := by
    unfold InFinder
    omega
  have hopen : LineOpen k (getCell (placeAlignment pos (placeFinders n g)) row col) :=
    placeAlignment_line hpos hn (placeFinders_square hg n) (placeFinders_stand (by omega) hg) hline
      (.inl ((getCell_placeFinders_other (by omega) hout g).trans h))
  rw [placePatterns]
  obtain hunset | hval := hopen
  · exact getCell_placeTiming_unset (placeAlignment_square (placeFinders_square hg n) pos) hk hline hunset
  · rw [getCell_placeTiming_assigned (by rw [hval]; exact timingCell_ne_unset k), hval]

/-! ## The patterns and the rest -/

/-- On a grid where a free anchor's pattern is still unset, the pattern stands once all anchors have been visited. -/
theorem foldl_placeAnchor_near {a : Nat × Nat} (hfree : ¬ InFinder n a.1 a.2) :
    ∀ {l : List (Nat × Nat)} {g : Grid}, Square n g → (∀ b ∈ l, b ∈ anchors pos) → a ∈ l →
      (∀ row col, Near a row col → getCell g row col = .unset) →
      ∀ row col, Near a row col → getCell (l.foldl placeAnchor g) row col = alignValue a row col
  | [], _, _, _, ha, _, _, _, _ => by simp at ha
  | b :: l, g, hg, hl, ha, hunset, row, col, hnear => by
    have hanchor := hl a ha
    have hcentre : Near a a.1 a.2 := ⟨by omega, by omega, by omega, by omega⟩
    have hb := hl b List.mem_cons_self
    have hl' : ∀ c ∈ l, c ∈ anchors pos := fun c hc => hl c (List.mem_cons_of_mem b hc)
    obtain ⟨hb1, hb2⟩ := two_le_anchor hpos hn hb
    rw [List.foldl_cons]
    by_cases hab : a = b
    · subst hab
      refine foldl_keeps (P := fun g => ∀ row col, Near a row col → getCell g row col = alignValue a row col)
        (fun g' c hc hval row col hnear => ?_) (fun row col hnear => ?_) row col hnear
      · obtain ⟨hc1, hc2⟩ := two_le_anchor hpos hn (hl' c hc)
        by_cases hac : a = c
        · have hassigned : getCell g' c.1 c.2 ≠ .unset := by
            rw [← hac, hval _ _ hcentre]
            exact cellOfBool_ne_unset _
          rw [placeAnchor_of_assigned hassigned, hval row col hnear]
        · rw [getCell_placeAnchor_far hc1 hc2 fun h => hac (anchors_apart hpos hanchor (hl' c hc) hnear h),
            hval row col hnear]
      · obtain ⟨hr, hc, -⟩ := near_of_free_anchor hpos hn hanchor hfree hnear
        exact getCell_placeAnchor_near hg hb1 hb2 hr hc (hunset _ _ hcentre) hnear
    · refine foldl_placeAnchor_near hfree (placeAnchor_square hg b) hl' ((List.mem_cons.1 ha).resolve_left hab)
        (fun row col hnear => ?_) row col hnear
      rw [getCell_placeAnchor_far hb1 hb2 fun h => hab (anchors_apart hpos hanchor hb hnear h), hunset row col hnear]

/-- A cell in no pattern of a free anchor keeps its value. -/
theorem getCell_placeAlignment_other {row col : Nat} (hfar : ∀ a ∈ anchors pos, ¬ InFinder n a.1 a.2 → ¬ Near a row col)
    {g : Grid} (hstand : FindersStand n g) : getCell (placeAlignment pos g) row col = getCell g row col := by
  have hall : FindersStand n (placeAlignment pos g) ∧ getCell (placeAlignment pos g) row col = getCell g row col :=
    foldl_keeps (P := fun g' => FindersStand n g' ∧ getCell g' row col = getCell g row col)
      (fun g' a ha ⟨hstand', hkept⟩ => ⟨placeAnchor_stand hpos hn ha hstand', by
        by_cases hfree : InFinder n a.1 a.2
        · rwa [placeAnchor_of_inFinder hstand' hfree]
        · obtain ⟨h1, h2⟩ := two_le_anchor hpos hn ha
          rwa [getCell_placeAnchor_far h1 h2 (hfar a ha hfree)]⟩) ⟨hstand, rfl⟩
  exact hall.2

variable {g : Grid} (hg : Square n g) (hunset : ∀ row col, getCell g row col = .unset)
include hg hunset

theorem placePatterns_alignment {a : Nat × Nat} (ha : a ∈ anchors pos) (hfree : ¬ InFinder n a.1 a.2) {row col : Nat}
    (h : Near a row col) : getCell (placePatterns n pos g) row col = alignValue a row col := by
  have h1 := (alignPositions_range hpos).1
  have hread : getCell (placeAlignment pos (placeFinders n g)) row col = alignValue a row col := by
    refine foldl_placeAnchor_near hpos hn hfree (placeFinders_square hg n) (fun _ hb => hb) ha (fun row col hnear => ?_) row col h
    obtain ⟨-, -, hout⟩ := near_of_free_anchor hpos hn ha hfree hnear
    rw [getCell_placeFinders_other (by omega) hout, hunset]
  rw [placePatterns, getCell_placeTiming_assigned (by rw [hread]; exact cellOfBool_ne_unset _), hread]

theorem placePatterns_unset {row col : Nat} (hout : ¬ InFinder n row col) (hr : row ≠ 6) (hc : col ≠ 6)
    (hfar : ∀ a ∈ anchors pos, ¬ InFinder n a.1 a.2 → ¬ Near a row col) :
    getCell (placePatterns n pos g) row col = .unset := by
  have h1 := (alignPositions_range hpos).1
  rw [placePatterns, getCell_placeTiming_other hr hc,
    getCell_placeAlignment_other hpos hn hfar (placeFinders_stand (by omega) hg),
    getCell_placeFinders_other (by omega) hout, hunset]

end

/-! ## `MXPAT` -/

theorem exec_mxpat_of_stage {s : State} {pos : List Nat} (hs : Accepting s) (hstage : s.stage = .empty)
    (hpos : alignPositions s.ver.toNat = .ok pos) :
    exec .mxpat s = .next { s with mx := placePatterns s.n.toNat pos s.mx, stage := .patterns, err := .ok } := by
  simp only [exec, execMxpat, requireStage_of_mem (List.mem_singleton.2 hstage), hpos, ok_bind, pure_eq_ok, command_ok hs,
    succeed]

/-- Settles O37: the finders come first and no later pattern touches them; where an alignment pattern lies on a timing line,
it agrees with the line. -/
theorem mxpatDrawsFindersAndTiming : Obligations.MxpatDrawsFindersAndTiming := by
  intro s hs hcore hstage
  obtain ⟨h1, h40, hn⟩ := hcore.side (by simp [hstage])
  obtain ⟨pos, hpos⟩ := alignPositions_ok h1 h40
  have hsquare := hcore.shape.square
  obtain ⟨hf1, hf2, hf3⟩ := (stand_iff_finderAt (by omega)).1 (placePatterns_stand hpos hn hsquare)
  refine ⟨_, exec_mxpat_of_stage hs hstage hpos, placePatterns_square hsquare _ pos, hf1, hf2, hf3,
    fun hunset k hk8 hk9 => ⟨?_, ?_⟩⟩
  · exact placePatterns_timing hpos hn hsquare ⟨hk8, hk9⟩ (.inl ⟨rfl, rfl⟩) (hunset k (by omega) 6 (by omega))
  · exact placePatterns_timing hpos hn hsquare ⟨hk8, hk9⟩ (.inr ⟨rfl, rfl⟩) (hunset 6 (by omega) k (by omega))

theorem getCell_unset_everywhere {n : Nat} {g : Grid} (hg : Square n g)
    (h : ∀ row < n, ∀ col < n, getCell g row col = .unset) (row col : Nat) : getCell g row col = .unset := by
  by_cases hin : row < n ∧ col < n
  · exact h row hin.1 col hin.2
  · exact getCell_outside hg hin

theorem mem_anchors {pos : List Nat} {a : Nat × Nat} : a ∈ anchors pos ↔ a.1 ∈ pos ∧ a.2 ∈ pos := by
  simp only [anchors, List.mem_flatMap, List.mem_map]
  exact ⟨fun ⟨row, hrow, col, hcol, h⟩ => h ▸ ⟨hrow, hcol⟩, fun h => ⟨a.1, h.1, a.2, h.2, rfl⟩⟩

/-- The anchors in finders are the three at their corners (46_matrix.md R148). -/
theorem anchor_inFinder_iff {n v : Nat} {pos : List Nat} (hpos : alignPositions v = .ok pos) (hn : n = 4 * v + 17)
    {a : Nat × Nat} (ha : a ∈ anchors pos) :
    ¬ InFinder n a.1 a.2 ↔ a ≠ (6, 6) ∧ a ≠ (6, n - 7) ∧ a ≠ (n - 7, 6) := by
  have h1 := (alignPositions_range hpos).1
  have hplace := anchor_place hpos hn ha
  simp only [InFinder, ne_eq, Prod.ext_iff]
  omega

/-- Settles O38: every anchor off the finders still finds its pattern's cells unset, and nothing else is drawn on the rest. -/
theorem mxpatDrawsAlignmentPatternsAndLeavesTheRestUnset : Obligations.MxpatDrawsAlignmentPatternsAndLeavesTheRestUnset := by
  intro s hs hcore hstage hcells
  obtain ⟨h1, h40, hn⟩ := hcore.side (by simp [hstage])
  obtain ⟨pos, hpos⟩ := alignPositions_ok h1 h40
  have hsquare := hcore.shape.square
  have hunset := getCell_unset_everywhere hsquare hcells
  refine ⟨pos, _, hpos, exec_mxpat_of_stage hs hstage hpos, fun row hrow col hcol h66 h67 h76 r hr c hc => ?_,
    fun row hrow col hcol hleft hright hr6 hc6 hfar => ?_⟩
  · have ha : (row, col) ∈ anchors pos := mem_anchors.2 ⟨hrow, hcol⟩
    obtain ⟨hr2, hc2⟩ := two_le_anchor hpos hn ha
    have hr' := mem_alignOffsets.1 hr
    have hc' := mem_alignOffsets.1 hc
    dsimp only at hr2 hc2
    rw [placePatterns_alignment hpos hn hsquare hunset ha ((anchor_inFinder_iff hpos hn ha).2 ⟨h66, h67, h76⟩)
      (by unfold Near; dsimp only; omega), alignValue]
    dsimp only
    rw [show (((row : Int) + r).toNat : Int) - row = r by omega, show (((col : Int) + c).toNat : Int) - col = c by omega]
    congr 1
    rw [Bool.eq_iff_iff]
    simp [alignDark]
  · refine placePatterns_unset hpos hn hsquare hunset (by unfold InFinder; omega) hr6 hc6 fun a ha hfree hnear => ?_
    obtain ⟨h66, h67, h76⟩ := (anchor_inFinder_iff hpos hn ha).1 hfree
    obtain ⟨hr, hc⟩ := mem_anchors.1 ha
    refine hfar a.1 hr a.2 hc h66 h67 h76 ?_
    unfold Near at hnear
    omega

end Sys2Proof.Machine

/-! SUPPORT. The data mapping: the scan, the loop of 46_matrix.md R157, and the command `MXMAP` (R159). -/

namespace Sys2Proof.Machine

/-! ## The columns and rows of the scan -/

/-- The right columns lie between 1 and the first column, each at least two left of the one before. -/
theorem rightColumns_spec : ∀ fuel col, (∀ c ∈ rightColumns fuel col, 1 ≤ c ∧ c ≤ col) ∧
    (rightColumns fuel col).Pairwise (fun c c' => c' + 2 ≤ c)
  | 0, _ => by simp [rightColumns]
  | fuel + 1, col => by
    rw [rightColumns]
    by_cases h0 : col = 0
    · simp [h0]
    · rw [if_neg h0]
      have hright : (if col = 6 then 5 else col) ≤ col ∧ 1 ≤ (if col = 6 then 5 else col) := by split <;> omega
      obtain ⟨hmem, hpair⟩ := rightColumns_spec fuel ((if col = 6 then 5 else col) - 2)
      refine ⟨fun c hc => ?_, List.pairwise_cons.2 ⟨fun c hc => ?_, hpair⟩⟩
      · obtain rfl | hc := List.mem_cons.1 hc
        · omega
        · have := hmem c hc
          omega
      · have := hmem c hc
        omega

/-- From an even column of at least 6 on, the column pairs cover every column but 6. -/
theorem rightColumns_cover : ∀ {fuel col : Nat}, 6 ≤ col → col % 2 = 0 → col ≤ 2 * fuel → ∀ {x : Nat},
    (∃ c ∈ rightColumns fuel col, x = c ∨ x = c - 1) ↔ x ≤ col ∧ x ≠ 6
  | 0, col, h6, _, hfuel, _ => by omega
  | fuel + 1, col, h6, heven, hfuel, x => by
    rw [rightColumns, if_neg (by omega)]
    by_cases hcol : col = 6
    · subst hcol
      obtain ⟨k, rfl⟩ := Nat.exists_eq_add_of_le' (show 2 ≤ fuel by omega)
      have hthree : rightColumns (k + 2) 3 = [3, 1] := by
        cases k <;> simp [rightColumns]
      simp only [if_true, show 5 - 2 = 3 by rfl, hthree, List.mem_cons, List.not_mem_nil, or_false, exists_eq_or_imp,
        exists_eq_left]
      omega
    · rw [if_neg hcol, List.exists_mem_cons_iff, rightColumns_cover (by omega) (by omega) (by omega)]
      omega

theorem mem_scanRows {n p row : Nat} : row ∈ scanRows n p ↔ row < n := by
  unfold scanRows
  split <;> simp

theorem scanRows_nodup (n p : Nat) : (scanRows n p).Nodup := by
  unfold scanRows
  split
  · exact List.nodup_reverse.2 List.nodup_range
  · exact List.nodup_range

/-- The cells of one column pair, row by row, the right one first. -/
def pairCells (rows : List Nat) (right : Nat) : List (Nat × Nat) := rows.flatMap (fun row => [(row, right), (row, right - 1)])

theorem visitOrder_eq (n : Nat) :
    visitOrder n = (rightColumns n (n - 1)).zipIdx.flatMap (fun pair => pairCells (scanRows n pair.2) pair.1) := rfl

theorem mem_pairCells {rows : List Nat} {right row col : Nat} :
    (row, col) ∈ pairCells rows right ↔ row ∈ rows ∧ (col = right ∨ col = right - 1) := by
  simp only [pairCells, List.mem_flatMap, List.mem_cons, List.not_mem_nil, or_false, Prod.mk.injEq]
  constructor
  · rintro ⟨r, hr, ⟨rfl, rfl⟩ | ⟨rfl, rfl⟩⟩
    · exact ⟨hr, .inl rfl⟩
    · exact ⟨hr, .inr rfl⟩
  · rintro ⟨hr, rfl | rfl⟩
    · exact ⟨row, hr, .inl ⟨rfl, rfl⟩⟩
    · exact ⟨row, hr, .inr ⟨rfl, rfl⟩⟩

theorem pairCells_nodup {rows : List Nat} {right : Nat} (hrows : rows.Nodup) (h : 1 ≤ right) :
    (pairCells rows right).Nodup := by
  refine List.nodup_flatMap.2 ⟨fun row _ => ?_, hrows.imp fun {a b} hab => ?_⟩
  · have : right ≠ right - 1 := by omega
    simp [this]
  · rintro ⟨r, c⟩ ha hb
    simp only [List.mem_cons, List.not_mem_nil, or_false, Prod.mk.injEq] at ha hb
    omega

/-- The scan visits no cell twice. -/
theorem visitOrder_nodup (n : Nat) : (visitOrder n).Nodup := by
  obtain ⟨hmem, hpair⟩ := rightColumns_spec n (n - 1)
  rw [visitOrder_eq]
  refine List.nodup_flatMap.2 ⟨fun pair hp => ?_, ?_⟩
  · exact pairCells_nodup (scanRows_nodup n pair.2) (hmem _ (List.fst_mem_of_mem_zipIdx hp)).1
  · have hpair' : (rightColumns n (n - 1)).zipIdx.Pairwise (fun p q => q.1 + 2 ≤ p.1) := by
      refine List.pairwise_map (f := Prod.fst) (R := fun c c' => c' + 2 ≤ c) |>.1 ?_
      rwa [List.zipIdx_map_fst]
    refine hpair'.imp_of_mem fun {p q} hp hq hpq => ?_
    rintro ⟨r, c⟩ hc hc'
    have h1 := (mem_pairCells.1 hc).2
    have h2 := (mem_pairCells.1 hc').2
    have := (hmem _ (List.fst_mem_of_mem_zipIdx hq)).1
    omega

theorem mem_visitOrder {n row col : Nat} :
    (row, col) ∈ visitOrder n ↔ row < n ∧ ∃ c ∈ rightColumns n (n - 1), col = c ∨ col = c - 1 := by
  rw [visitOrder_eq, List.mem_flatMap]
  constructor
  · rintro ⟨pair, hp, h⟩
    obtain ⟨hrow, hcol⟩ := mem_pairCells.1 h
    exact ⟨mem_scanRows.1 hrow, pair.1, List.fst_mem_of_mem_zipIdx hp, hcol⟩
  · rintro ⟨hrow, c, hc, hcol⟩
    obtain ⟨p, hp⟩ := List.mem_iff_getElem?.1 hc
    exact ⟨(c, p), List.mk_mem_zipIdx_iff_getElem?.2 hp, mem_pairCells.2 ⟨mem_scanRows.2 hrow, hcol⟩⟩

theorem mem_visitOrder_iff {n row col : Nat} (hodd : n % 2 = 1) (hn : 9 ≤ n) :
    (row, col) ∈ visitOrder n ↔ row < n ∧ col < n ∧ col ≠ 6 := by
  rw [mem_visitOrder, rightColumns_cover (by omega) (by omega) (by omega)]
  omega

/-- Settles O42: the column pairs are disjoint and cover every column but 6, and each is walked row by row. -/
theorem scanVisitsEveryCellOffColumnSixOnce : Obligations.ScanVisitsEveryCellOffColumnSixOnce :=
  fun n hodd hn => ⟨visitOrder_nodup n, fun _ _ => mem_visitOrder_iff hodd hn⟩

/-! ## The walk of the pseudocode -/

/-- Walking upward from `row` visits the rows `row` to 0 and ends in row 0. -/
theorem walkRows_up (n col : Nat) : ∀ {fuel row : Nat}, row < fuel → row < n →
    walkRows n col (-1) fuel row = (pairCells (List.range (row + 1)).reverse col, 0)
  | fuel + 1, 0, _, _ => by simp [walkRows, pairCells]
  | fuel + 1, row + 1, hfuel, hrow => by
    have hnext : ((row + 1 : Nat) : Int) + -1 = (row : Int) := by omega
    have hin : ¬ ((row : Int) < 0 ∨ (row : Int) ≥ n) := by omega
    rw [walkRows, hnext, if_neg hin, walkRows_up n col (by omega) (by omega), List.range_succ (n := row + 1)]
    simp [pairCells]

/-- Walking downward from `row` visits the rows `row` to `n - 1` and ends in the last one. -/
theorem walkRows_down (n col : Nat) : ∀ {fuel row : Nat}, n - row ≤ fuel → row < n →
    walkRows n col 1 fuel row = (pairCells (List.range' row (n - row)) col, (n : Int) - 1)
  | 0, row, hfuel, hrow => by omega
  | fuel + 1, row, hfuel, hrow => by
    rw [walkRows]
    have hsplit : List.range' row (n - row) = row :: List.range' (row + 1) (n - (row + 1)) := by
      rw [show n - row = (n - (row + 1)) + 1 by omega, List.range'_succ]
    by_cases hlast : row + 1 = n
    · have hout : (row : Int) + 1 < 0 ∨ (row : Int) + 1 ≥ n := by omega
      rw [if_pos hout, hsplit, show n - (row + 1) = 0 by omega]
      simp [pairCells]
      omega
    · have hin : ¬ ((row : Int) + 1 < 0 ∨ (row : Int) + 1 ≥ n) := by omega
      rw [if_neg hin, show (row : Int) + 1 = ((row + 1 : Nat) : Int) by omega, walkRows_down n col (by omega) (by omega), hsplit]
      simp [pairCells]

/-- Where the walk of the `p`-th column pair begins: at the bottom going up, or at the top going down. -/
def walkStart (n p : Nat) : Int × Int := if p % 2 = 0 then ((n : Int) - 1, -1) else (0, 1)

theorem walkRows_eq {n : Nat} (hn : 1 ≤ n) (col p : Nat) :
    walkRows n col (walkStart n p).2 n (walkStart n p).1 = (pairCells (scanRows n p) col, (walkStart n (p + 1)).1) ∧
    -(walkStart n p).2 = (walkStart n (p + 1)).2 := by
  unfold walkStart scanRows
  by_cases hp : p % 2 = 0
  · have hp' : ¬ (p + 1) % 2 = 0 := by omega
    have hup := walkRows_up n col (fuel := n) (row := n - 1) (by omega) (by omega)
    rw [show ((n - 1 : Nat) : Int) = (n : Int) - 1 by omega, show n - 1 + 1 = n by omega] at hup
    simp only [hp, hp', if_true, if_false, hup]
    exact ⟨trivial, rfl⟩
  · have hp' : (p + 1) % 2 = 0 := by omega
    have hdown := walkRows_down n col (fuel := n) (row := 0) (by omega) (by omega)
    rw [Nat.sub_zero, ← List.range_eq_range'] at hdown
    simp only [hp, hp', if_true, if_false]
    exact ⟨hdown, trivial⟩

theorem walkColumns_eq {n : Nat} (hn : 1 ≤ n) : ∀ (fuel col p : Nat),
    walkColumns n fuel col (walkStart n p).1 (walkStart n p).2 =
      ((rightColumns fuel col).zipIdx p).flatMap (fun pair => pairCells (scanRows n pair.2) pair.1)
  | 0, _, _ => rfl
  | fuel + 1, col, p => by
    rw [walkColumns, rightColumns]
    by_cases h0 : col = 0
    · simp [h0]
    · obtain ⟨hrows, hinc⟩ := walkRows_eq hn (if col = 6 then 5 else col) p
      simp only [if_neg h0, hrows, hinc, walkColumns_eq hn fuel _ (p + 1), List.zipIdx_cons, List.flatMap_cons]

theorem visitOrder_eq_walk {n : Nat} (hn : 1 ≤ n) : visitOrder n = walkColumns n n (n - 1) (n - 1) (-1) :=
  (walkColumns_eq hn n (n - 1) 0).symm

/-! ## The mapping -/

/-- The write of the data cell that takes stream bit `cell.2` (46_matrix.md R157). -/
def dataWrite (cw : List Byte) (k : BitVec 3) (cell : (Nat × Nat) × Nat) : Nat × Nat × Cell :=
  (cell.1.1, cell.1.2, cellOfBool (xor (streamBit cw cell.2) (maskPred k cell.1.1 cell.1.2)))

theorem mapData_eq (n : Nat) (cw : List Byte) (k : BitVec 3) (g : Grid) :
    mapData n cw k g = setCells g ((dataCells n g).zipIdx.map (dataWrite cw k)) := rfl

/-- Over cells none of which comes twice, the loop writes those that are unset at entry: a write changes no later test. -/
theorem mapLoop_eq (cw : List Byte) (k : BitVec 3) : ∀ {cells : List (Nat × Nat)}, cells.Nodup → ∀ (idx : Nat) (g : Grid),
    mapLoop cw k cells idx g =
      setCells g (((cells.filter (fun rc => getCell g rc.1 rc.2 == .unset)).zipIdx idx).map (dataWrite cw k))
  | [], _, _, _ => rfl
  | (row, col) :: rest, hnodup, idx, g => by
    obtain ⟨hfirst, hrest⟩ := List.nodup_cons.1 hnodup
    by_cases hunset : getCell g row col = .unset
    · have hsame : rest.filter (fun rc => getCell (setCell g row col
          (cellOfBool (xor (streamBit cw idx) (maskPred k row col)))) rc.1 rc.2 == .unset) =
          rest.filter (fun rc => getCell g rc.1 rc.2 == .unset) := by
        refine List.filter_congr fun rc hrc => ?_
        have hne : rc ≠ (row, col) := fun h => hfirst (h ▸ hrc)
        have hother : rc.1 ≠ row ∨ rc.2 ≠ col := by
          by_contra hsame
          rw [not_or, not_not, not_not] at hsame
          exact hne (Prod.ext hsame.1 hsame.2)
        rw [getCell_setCell_other g hother]
      rw [mapLoop, if_pos hunset, mapLoop_eq cw k hrest, hsame, List.filter_cons_of_pos (by simpa using hunset),
        List.zipIdx_cons, List.map_cons, setCells_cons]
      rfl
    · rw [mapLoop, if_neg hunset, mapLoop_eq cw k hrest, List.filter_cons_of_neg (by simpa using hunset)]

theorem mapData_eq_mapLoop (n : Nat) (cw : List Byte) (k : BitVec 3) (g : Grid) :
    mapData n cw k g = mapLoop cw k (visitOrder n) 0 g := (mapLoop_eq cw k (visitOrder_nodup n) 0 g).symm

/-- Settles O41: the scan is the walk, and since it visits no cell twice a write changes no later test. -/
theorem dataMappingIsTheLoopOfItsRule : Obligations.DataMappingIsTheLoopOfItsRule :=
  ⟨fun n cw k g _ _ => mapData_eq_mapLoop n cw k g, fun _ hn => visitOrder_eq_walk hn⟩

theorem mem_dataWrites {n : Nat} {cw : List Byte} {k : BitVec 3} {g : Grid} {w : Nat × Nat × Cell}
    (hw : w ∈ (dataCells n g).zipIdx.map (dataWrite cw k)) : getCell g w.1 w.2.1 = .unset ∧ w.2.2 ≠ .unset := by
  obtain ⟨cell, hcell, rfl⟩ := List.mem_map.1 hw
  have hmem := (List.mem_filter.1 (List.fst_mem_of_mem_zipIdx hcell)).2
  exact ⟨by simpa [dataWrite] using hmem, cellOfBool_ne_unset _⟩

/-- A cell that is assigned takes no data. -/
theorem getCell_mapData_assigned {n row col : Nat} {g : Grid} (h : getCell g row col ≠ .unset) (cw : List Byte) (k : BitVec 3) :
    getCell (mapData n cw k g) row col = getCell g row col := by
  rw [mapData_eq]
  refine getCell_setCells_other _ g fun w hw => ?_
  by_contra hsame
  rw [not_or, not_not, not_not] at hsame
  exact h (hsame.1 ▸ hsame.2 ▸ (mem_dataWrites hw).1)

/-- Where column 6 is assigned, the mapping leaves no cell of the matrix unset: the scan visits all others. -/
theorem getCell_mapData_ne_unset {n row col : Nat} {g : Grid} (hodd : n % 2 = 1) (hn : 9 ≤ n) (hg : Square n g)
    (hsix : ∀ row < n, getCell g row 6 ≠ .unset) (hr : row < n) (hc : col < n) (cw : List Byte) (k : BitVec 3) :
    getCell (mapData n cw k g) row col ≠ .unset := by
  by_cases hunset : getCell g row col = .unset
  · have hvisit : (row, col) ∈ visitOrder n :=
      (mem_visitOrder_iff hodd hn).2 ⟨hr, hc, fun h6 => hsix row hr (h6 ▸ hunset)⟩
    have hdata : (row, col) ∈ dataCells n g := List.mem_filter.2 ⟨hvisit, by simpa using hunset⟩
    obtain ⟨idx, hidx⟩ := List.mem_iff_getElem?.1 hdata
    obtain ⟨w, hw, -, -, hread⟩ := getCell_setCells_named hr hc hg ⟨dataWrite cw k ((row, col), idx),
      List.mem_map_of_mem (List.mk_mem_zipIdx_iff_getElem?.2 hidx), rfl, rfl⟩
    rw [mapData_eq, hread]
    exact (mem_dataWrites hw).2
  · rwa [getCell_mapData_assigned hunset]

/-! ## `MXMAP` -/

theorem exec_mxmap_of_stage {k : Byte} {s : State} (hs : Accepting s) (hstage : s.stage = .reserved) (hk : k.toNat ≤ 7) :
    exec (.mxmap k) s = .next { s with
      mx := mapData s.n.toNat s.cw (BitVec.ofNat 3 k.toNat) s.mx, mask := BitVec.ofNat 3 k.toNat,
      stage := .mapped, err := .ok } := by
  simp only [exec, execMxmap, maskOperand_eq_ok.2 ⟨hk, rfl⟩, requireStage_of_mem (List.mem_singleton.2 hstage), ok_bind,
    pure_eq_ok, command_ok hs, succeed]

/-- Settles O40: the mapping is the loop over the walk, it writes unset cells alone, and with column 6 assigned it reaches all
that are left. -/
theorem mxmapWritesOnlyUnsetCellsAndLeavesNone : Obligations.MxmapWritesOnlyUnsetCellsAndLeavesNone := by
  intro k s hs hcells hstage hk
  obtain ⟨h1, -, hn⟩ := hcells.core.side (by simp [hstage])
  have hsquare := hcells.core.shape.square
  refine ⟨_, exec_mxmap_of_stage hs hstage hk, ?_, rfl, mapData_square hsquare _ _ _,
    fun row col h => getCell_mapData_assigned h _ _, fun row hr col hc => ?_⟩
  · rw [mapData_eq_mapLoop, visitOrder_eq_walk (by omega)]
  · exact getCell_mapData_ne_unset (by omega) (by omega) hsquare (hcells.timingColumn (.inr hstage)) hr hc _ _

end Sys2Proof.Machine

/-! SUPPORT. The cell and finder invariants (10_state.md section 3, 46_matrix.md R164): every move of the symbol keeps them. -/

namespace Sys2Proof.Machine

/-! ## Metadata writes and the patterns -/

theorem metaWrites_assign {n v : Nat} {f : Nat → Cell} {dm : Cell} {b : Nat → Cell} (hf : ∀ i, f i ≠ .unset) (hd : dm ≠ .unset)
    (hb : ∀ i, b i ≠ .unset) : ∀ w ∈ metaWrites n v f dm b, w.2.2 ≠ .unset := by
  intro w hw
  obtain ⟨i, -, -, hval⟩ | ⟨-, hval⟩ | ⟨-, i, -, -, hval⟩ := mem_metaWrites.1 hw <;> rw [hval]
  · exact hf i
  · exact hd
  · exact hb i

/-- `MXFIN` unsets no cell. -/
theorem writeMeta_assigned {n row col : Nat} {g : Grid} (hg : Square n g) (hr : row < n) (hc : col < n)
    (h : getCell g row col ≠ .unset) (lvl : Level) (k : BitVec 3) (v : BitVec 6) :
    getCell (writeMeta n lvl k v g) row col ≠ .unset :=
  setCells_assigned hr hc _ hg
    (metaWrites_assign (fun _ => cellOfBool_ne_unset _) (by decide) fun _ => cellOfBool_ne_unset _) h

section
variable {n v : Nat} (hn : n = 4 * v + 17) (h1 : 1 ≤ v) {row col : Nat}
include hn h1

theorem not_isMetadata_of_inFinder (h : InFinder n row col) : ¬ IsMetadata n v row col := by
  intro hmeta
  have := hmeta.place (by omega) (by omega)
  unfold InFinder at h
  omega

theorem not_isMetadata_column_six : ¬ IsMetadata n v row 6 := by
  intro hmeta
  have := hmeta.place (by omega) (by omega)
  omega

theorem reserveMeta_stand {g : Grid} (h : FindersStand n g) : FindersStand n (reserveMeta n v g) := fun row col hin => by
  rw [getCell_reserveMeta_other (not_isMetadata_of_inFinder hn h1 hin), h row col hin]

end

theorem writeMeta_stand {n : Nat} {v : BitVec 6} (hn : n = 4 * v.toNat + 17) (h1 : 1 ≤ v.toNat) {g : Grid} (h : FindersStand n g)
    (lvl : Level) (k : BitVec 3) : FindersStand n (writeMeta n lvl k v g) := fun row col hin => by
  rw [getCell_writeMeta_other (not_isMetadata_of_inFinder hn h1 hin), h row col hin]

theorem mapData_stand {n : Nat} {g : Grid} (h : FindersStand n g) (cw : List Byte) (k : BitVec 3) :
    FindersStand n (mapData n cw k g) := fun row col hin => by
  rw [getCell_mapData_assigned (by rw [h row col hin]; exact cellOfBool_ne_unset _), h row col hin]

/-! ## The symbol that `MXBEST` and `GEN` build -/

theorem reservedGrid_square (n v : Nat) (pos : List Nat) : Square n (reservedGrid n v pos) :=
  reserveMeta_square (placePatterns_square (unsetGrid_square n) n pos) n v

section
variable {n v : Nat} {pos : List Nat} (hpos : alignPositions v = .ok pos) (hn : n = 4 * v + 17)
include hpos hn

theorem reservedGrid_stand : FindersStand n (reservedGrid n v pos) :=
  reserveMeta_stand hn (alignPositions_range hpos).1 (placePatterns_stand hpos hn (unsetGrid_square n))

theorem reservedGrid_column_six {row : Nat} (hr : row < n) : getCell (reservedGrid n v pos) row 6 ≠ .unset := by
  rw [reservedGrid, getCell_reserveMeta_other (not_isMetadata_column_six hn (alignPositions_range hpos).1)]
  exact placePatterns_column_six hpos hn (unsetGrid_square n) hr

theorem buildTrial_assigned {row col : Nat} (hr : row < n) (hc : col < n) (cw : List Byte) (k : BitVec 3) :
    getCell (buildTrial n v pos cw k) row col ≠ .unset := by
  have h1 := (alignPositions_range hpos).1
  exact getCell_mapData_ne_unset (by omega) (by omega) (reservedGrid_square n v pos)
    (fun _ hr => reservedGrid_column_six hpos hn hr) hr hc cw k

end

section
variable {n : Nat} {v : BitVec 6} {pos : List Nat} (hpos : alignPositions v.toNat = .ok pos) (hn : n = 4 * v.toNat + 17)
  (cw : List Byte) (lvl : Level) (k : BitVec 3)
include hpos hn

theorem buildFinal_stand : FindersStand n (buildFinal n v pos cw lvl k) :=
  writeMeta_stand hn (alignPositions_range hpos).1 (mapData_stand (reservedGrid_stand hpos hn) cw k) lvl k

theorem buildFinal_assigned {row col : Nat} (hr : row < n) (hc : col < n) :
    getCell (buildFinal n v pos cw lvl k) row col ≠ .unset :=
  writeMeta_assigned (buildTrial_square n v.toNat pos cw k) hr hc (buildTrial_assigned hpos hn hr hc cw k) lvl k v

end

/-! ## The finder invariant -/

theorem findersOk_iff {s : State} :
    FindersOk s ↔ CoreOk s ∧ (s.stage ≠ .none → s.stage ≠ .empty → FindersStand s.n.toNat s.mx) := by
  constructor
  · intro h
    refine ⟨h.core, fun h0 h1 => ?_⟩
    have := h.core.side h0
    exact (stand_iff_finderAt (by omega)).2 (h.finders h0 h1)
  · rintro ⟨hcore, hstand⟩
    refine ⟨hcore, fun h0 h1 => ?_⟩
    have := hcore.side h0
    exact (stand_iff_finderAt (by omega)).1 (hstand h0 h1)

theorem kept_findersOk : Kept FindersOk := by
  refine ⟨fun s h => h.core, fun s _ => ?_, fun s rest h => ?_, fun s e h hcore => ?_, fun s u h hcore hmove => ?_⟩
  · exact findersOk_iff.2 ⟨coreOk_assertReset s, fun h0 => absurd rfl h0⟩
  · exact findersOk_iff.2 ⟨h.core.popPort rest, (findersOk_iff.1 h).2⟩
  · exact findersOk_iff.2 ⟨hcore, (findersOk_iff.1 h).2⟩
  · refine findersOk_iff.2 ⟨hcore, fun h0 hempty => ?_⟩
    have hstand := (findersOk_iff.1 h).2
    rw [succeed_stage] at h0 hempty
    rw [succeed_n, succeed_mx]
    cases hmove with
    | kept ver ecl mask n stage mx =>
      rw [n, mx]
      exact hstand (stage ▸ h0) (stage ▸ hempty)
    | discarded stage => exact absurd stage h0
    | restarted _ _ _ stage => exact absurd stage hempty
    | patterned pos hstage hpos ver n stage mx =>
      rw [n, mx]
      exact placePatterns_stand hpos (h.core.side (by simp [hstage])).2.2 h.core.shape.square
    | reserved hstage ver n stage mx =>
      obtain ⟨h1, -, hn⟩ := h.core.side (by simp [hstage])
      rw [n, mx]
      exact reserveMeta_stand hn h1 (hstand (by simp [hstage]) (by simp [hstage]))
    | mapped k hstage ver n stage mx =>
      rw [n, mx]
      exact mapData_stand (hstand (by simp [hstage]) (by simp [hstage])) s.cw k
    | finished hstage ver ecl mask n stage mx =>
      obtain ⟨h1, -, hn⟩ := h.core.side (by simp [hstage])
      rw [n, mx]
      exact writeMeta_stand hn h1 (hstand (by simp [hstage]) (by simp [hstage])) s.ecl s.mask
    | built pos hpos n stage mx =>
      rw [n, mx]
      exact buildFinal_stand hpos (moduleCount_toNat (alignPositions_range hpos).2) u.cw u.ecl u.mask

/-- Settles O59: `MXPAT` draws the finders, the metadata lie elsewhere, and the data take unset cells alone. -/
theorem stepKeepsTheFinders : Obligations.StepKeepsTheFinders := fun _ _ h ht => kept_findersOk.step h ht

/-! ## The cell invariant -/

/-- The cells of a grid are unset or assigned as the stage asks (46_matrix.md R157). -/
def CellsFor (stage : Stage) (n : Nat) (g : Grid) : Prop :=
  (stage = .empty → ∀ row < n, ∀ col < n, getCell g row col = .unset) ∧
  (stage = .patterns ∨ stage = .reserved → ∀ row < n, getCell g row 6 ≠ .unset) ∧
  (stage = .mapped ∨ stage = .final → ∀ row < n, ∀ col < n, getCell g row col ≠ .unset)

theorem cellsOk_iff {s : State} : CellsOk s ↔ CoreOk s ∧ CellsFor s.stage s.n.toNat s.mx :=
  ⟨fun h => ⟨h.core, h.startsUnset, h.timingColumn, h.assigned⟩, fun ⟨hcore, h1, h2, h3⟩ => ⟨hcore, h1, h2, h3⟩⟩

theorem cellsFor_none {n : Nat} {g : Grid} : CellsFor .none n g := ⟨by simp, by simp, by simp⟩

theorem cellsFor_column {stage : Stage} {n : Nat} {g : Grid} (hs : stage = .patterns ∨ stage = .reserved)
    (h : ∀ row < n, getCell g row 6 ≠ .unset) : CellsFor stage n g := by
  obtain rfl | rfl := hs <;> exact ⟨by simp, fun _ => h, by simp⟩

theorem cellsFor_all {stage : Stage} {n : Nat} {g : Grid} (hs : stage = .mapped ∨ stage = .final)
    (h : ∀ row < n, ∀ col < n, getCell g row col ≠ .unset) : CellsFor stage n g := by
  obtain rfl | rfl := hs <;> exact ⟨by simp, by simp, fun _ => h⟩

theorem kept_cellsOk : Kept CellsOk := by
  refine ⟨fun s h => h.core, fun s _ => ?_, fun s rest h => ?_, fun s e h hcore => ?_, fun s u h hcore hmove => ?_⟩
  · refine cellsOk_iff.2 ⟨coreOk_assertReset s, ?_⟩
    rw [assertReset_stage]
    exact cellsFor_none
  · exact cellsOk_iff.2 ⟨h.core.popPort rest, (cellsOk_iff.1 h).2⟩
  · exact cellsOk_iff.2 ⟨hcore, (cellsOk_iff.1 h).2⟩
  · refine cellsOk_iff.2 ⟨hcore, ?_⟩
    have hsquare := h.core.shape.square
    rw [succeed_stage, succeed_n, succeed_mx]
    cases hmove with
    | kept ver ecl mask n stage mx =>
      rw [n, stage, mx]
      exact (cellsOk_iff.1 h).2
    | discarded stage n mx =>
      rw [stage]
      exact cellsFor_none
    | restarted _ _ n stage mx =>
      rw [stage, mx]
      exact ⟨fun _ row _ col _ => getCell_unsetGrid _ row col, by simp, by simp⟩
    | patterned pos hstage hpos ver n stage mx =>
      rw [n, mx]
      exact cellsFor_column (.inl stage) fun row hr =>
        placePatterns_column_six hpos (h.core.side (by simp [hstage])).2.2 hsquare hr
    | reserved hstage ver n stage mx =>
      obtain ⟨h1, -, hn⟩ := h.core.side (by simp [hstage])
      rw [n, mx]
      refine cellsFor_column (.inr stage) fun row hr => ?_
      rw [getCell_reserveMeta_other (not_isMetadata_column_six hn h1)]
      exact h.timingColumn (.inl hstage) row hr
    | mapped k hstage ver n stage mx =>
      obtain ⟨h1, -, hn⟩ := h.core.side (by simp [hstage])
      rw [n, mx]
      exact cellsFor_all (.inl stage) fun row hr col hc =>
        getCell_mapData_ne_unset (by omega) (by omega) hsquare (h.timingColumn (.inr hstage)) hr hc s.cw k
    | finished hstage ver ecl mask n stage mx =>
      rw [n, mx]
      exact cellsFor_all (.inr stage) fun row hr col hc =>
        writeMeta_assigned hsquare hr hc (h.assigned (.inl hstage) row hr col hc) s.ecl s.mask s.ver
    | built pos hpos n stage mx =>
      rw [n, mx]
      exact cellsFor_all (.inr stage) fun row hr col hc =>
        buildFinal_assigned hpos (moduleCount_toNat (alignPositions_range hpos).2) u.cw u.ecl u.mask hr hc

/-- Settles O58: `MXPAT` assigns column 6, the scan visits every other column, and no later command unsets a cell. -/
theorem stepKeepsAssignedCells : Obligations.StepKeepsAssignedCells := fun _ _ h ht => kept_cellsOk.step h ht

end Sys2Proof.Machine

/-! SUPPORT. Reset, words and bad operands: what a step does before any command has its effect (70_reset_and_hazards.md R240,
60_exceptions.md R212 to R214). -/

namespace Sys2Proof.Machine

/-- Settles O2: the reset state is what a reset event leaves, and its stage asks for nothing. -/
theorem resetStateMeetsEveryInvariant : Obligations.ResetStateMeetsEveryInvariant :=
  have hcore : CoreOk State.reset := coreOk_assertReset State.reset
  ⟨cellsOk_iff.2 ⟨hcore, cellsFor_none⟩, findersOk_iff.2 ⟨hcore, fun h => absurd rfl h⟩,
    metadataOk_iff.2 ⟨hcore, fun h => nomatch h⟩⟩

/-- Settles O1: a reset event keeps the port and the parameters, and every read of the reset state is 0 or empty. -/
theorem resetLeavesEveryRegisterZeroAndEveryBufferEmpty : Obligations.ResetLeavesEveryRegisterZeroAndEveryBufferEmpty := by
  intro s rest hport
  refine ⟨_, step_reset hport, rfl, rfl, fun r => ?_, fun sp hexp hlog i => ?_, fun row col => ?_⟩
  · cases r <;> rfl
  · cases sp with
    | exp => exact absurd rfl hexp
    | log => exact absurd rfl hlog
    | payload | pa | pb | pr | db | ecb | bb | cw => rfl
  · have hn : ¬ (row < 0 ∧ col < 0) := by omega
    exact if_neg hn

/-- Settles O3: the word is taken off the port and decoded, and a word put in front of the port is the next one taken. -/
theorem stepRunsTheDecodedCommand : Obligations.StepRunsTheDecodedCommand := by
  refine ⟨fun s w rest i hs hport hdecode => ⟨(encode_of_decode hdecode).1, ?_⟩, fun s w i hs hdecode => ?_⟩
  · have hs' : Accepting (popPort rest s) := hs
    rw [step_command hport, acceptWord_of_decode hdecode hs']
    rfl
  · have hword : tableWord 32 w = BitVec.ofNat 32 w := BitVec.eq_of_toNat_eq (by simp [tableWord])
    have hport : (s.withFetchWord 32 w).port = .command (BitVec.ofNat 32 w) :: s.port := by
      rw [State.withFetchWord, hword]
      rfl
    have hpop : popPort s.port (s.withFetchWord 32 w) = s := rfl
    rw [step_command hport, hpop, acceptWord_of_decode hdecode hs]

/-- Settles O4: an empty port, a stuck core, and an accepting core with a word that does not decode. -/
theorem stepHoldsDiscardsOrReportsIllegalWords : Obligations.StepHoldsDiscardsOrReportsIllegalWords := by
  refine ⟨fun s hport => step_idle hport, fun s w rest hport hf => ?_, fun s w rest e hport hs hdecode => ?_⟩
  · have hf' : (popPort rest s).fault = true := hf
    rw [step_command hport, acceptWord_of_fault hf']
    rfl
  · have hs' : Accepting (popPort rest s) := hs
    rw [step_command hport, acceptWord_of_decode_error hdecode hs']
    rfl

/-- Settles O5: each word is the encoding of its command. -/
theorem writtenOutWordsDecode : Obligations.WrittenOutWordsDecode := by
  have hword (i : Instr) (w : Word) (hwf : i.wellFormed = true) (henc : encode i = w) : decode w = .ok i :=
    henc ▸ decode_encode hwf
  exact ⟨hword _ _ rfl rfl, hword _ _ rfl rfl, hword _ _ rfl rfl, hword _ _ rfl rfl, hword _ _ rfl rfl, hword _ _ rfl rfl,
    hword _ _ rfl rfl, hword _ _ rfl rfl, hword _ _ rfl rfl, hword _ _ rfl rfl⟩

/-! ## Checks that turn a command away -/

/-- A command whose first check refuses is turned away. -/
theorem turnedAway_of_check {α : Type} {s : State} (hs : Accepting s) {x : Except ErrorCode α} {f : α → Except ErrorCode State}
    (hx : x = .error .illegalCommand) : command s (x >>= f) = turnedAway .illegalCommand s := by
  rw [hx, error_bind, command_error hs, raise_of_recoverable rfl]

theorem requireStage_of_not_mem {allowed : List Stage} {s : State} (h : s.stage ∉ allowed) :
    requireStage allowed s = .error .illegalCommand := requireStage_eq_error.2 ⟨rfl, h⟩

theorem requireVersion_of_zero {s : State} (h : s.ver = 0#6) : requireVersion s = .error .illegalCommand :=
  requireVersion_eq_error.2 ⟨rfl, h⟩

/-- A mask above 7 turns `MXMAP` away in any stage, and a stage but RESERVED with any mask. -/
theorem exec_mxmap_turnedAway {k : Byte} {s : State} (hs : Accepting s) (h : 7 < k.toNat ∨ s.stage ≠ .reserved) :
    exec (.mxmap k) s = turnedAway .illegalCommand s := by
  by_cases hk : k.toNat ≤ 7
  · have hstage := requireStage_of_not_mem (allowed := [.reserved]) (s := s) (by simpa using h.resolve_left (by omega))
    simp only [exec, execMxmap, maskOperand_eq_ok.2 ⟨hk, rfl⟩, ok_bind]
    exact turnedAway_of_check hs hstage
  · exact turnedAway_of_check hs (if_neg hk)

/-- Settles O15: in each case the first check of the command refuses. -/
theorem badOperandsStagesAndMissingVersionsAreTurnedAway : Obligations.BadOperandsStagesAndMissingVersionsAreTurnedAway := by
  intro s hs
  refine ⟨fun h => ?_, fun h => ?_, fun h k => exec_mxmap_turnedAway hs (.inr h), fun h => ?_, fun h h' => ?_,
    fun h row col => ?_, fun h => ⟨?_, ?_, ?_, ?_⟩, fun lvl v hv => ?_, fun n val hn => ?_,
    fun k hk => exec_mxmap_turnedAway hs (.inl hk), fun k row col hk => ?_, fun d hd => ?_, fun v hv => ?_⟩
  · exact turnedAway_of_check hs (requireStage_of_not_mem (by simpa using h))
  · exact turnedAway_of_check hs (requireStage_of_not_mem (by simpa using h))
  · exact turnedAway_of_check hs (requireStage_of_not_mem (by simpa using h))
  · exact turnedAway_of_check hs (requireStage_of_not_mem (by simp [h, h']))
  · exact turnedAway_of_check hs (requireStage_of_not_mem (by simpa using h))
  · exact turnedAway_of_check hs (requireVersion_of_zero h)
  · exact turnedAway_of_check hs (requireVersion_of_zero h)
  · exact turnedAway_of_check hs (requireVersion_of_zero h)
  · exact turnedAway_of_check hs (requireVersion_of_zero h)
  · exact turnedAway_of_check hs (if_neg (by bv_omega))
  · exact turnedAway_of_check hs (if_neg (Nat.not_le.2 hn))
  · exact turnedAway_of_check hs (if_neg (Nat.not_le.2 hk))
  · exact turnedAway_of_check hs (if_neg (Nat.not_le.2 hd))
  · exact turnedAway_of_check hs (if_neg (Nat.not_le.2 hv))

end Sys2Proof.Machine

/-! SUPPORT. The stages (46_matrix.md R145) and the query of a finished symbol (49_generate.md R204). -/

namespace Sys2Proof.Machine

/-! ## The stages -/

/-- Settles O56, command by command: its effect gives the stage it leaves, and an error leaves the stage and the matrix. -/
theorem stageMovesOneWayUntilRestarted : Obligations.StageMovesOneWayUntilRestarted := by
  intro i s t hs h
  obtain ⟨hf, -⟩ | ⟨-, u, hu, rfl⟩ | ⟨-, e, -, rfl⟩ := exec_cases h
  · exact absurd (hs.symm.trans hf) (by decide)
  · simp only [succeed_stage, succeed_mx, succeed_n]
    cases i with
    | nop | gexp _ | glog _ | maskq _ _ _ | mxpen | bchfmt _ | bchver _ | isdark _ _ | modcnt | pclr _ | ppush _ _ | pmul | rsgen _
    | pmod | dbrst | dbpush _ | plrst | plpush _ | rsenc _ | bbrst | bbput _ _ | bbenc | split =>
      obtain ⟨-, -, -, -, hn, -, -, -, -, -, -, -, -, -, -, hmove⟩ := onlyItsWritersChangeARegister _ _ _ h
      simp only [succeed_stage, succeed_mx, succeed_n, reduceCtorEq, exists_false, or_false, imp_false, not_or, ne_eq, not_not]
        at hn hmove
      obtain ⟨hmx, hstage⟩ := hmove
      simp [hn, hmx, hstage]
    | mxpat =>
      obtain ⟨hstage, pos, -, rfl⟩ := hu
      simp [hstage, stageCode]
    | mxrsv | mxfin =>
      obtain ⟨hstage, rfl⟩ := hu
      simp [hstage, stageCode]
    | mxmap _ =>
      obtain ⟨hstage, -, rfl⟩ := hu
      simp [hstage, stageCode]
    | vsel _ =>
      obtain ⟨v, -, -, rfl⟩ := hu
      simp
    | setvl _ _ =>
      obtain ⟨-, -, rfl⟩ := hu
      simp
    | mxrst =>
      obtain ⟨-, rfl⟩ := hu
      simp
    | mxbest =>
      obtain ⟨pos, best, -, rfl⟩ := runBestMask_eq_ok hu.2
      simp
    | gen _ =>
      obtain ⟨_, _, _, -, -, -, -, hbest⟩ := hu
      obtain ⟨pos, best, -, rfl⟩ := runBestMask_eq_ok hbest
      simp
  · exact ⟨fun hlt => absurd hlt (Nat.lt_irrefl _), fun herr => absurd herr (by simp), fun hfinal _ _ _ _ _ => ⟨rfl, rfl, hfinal⟩⟩

/-! ## `ISDARK` -/

theorem exec_isdark_of_inside {s : State} {row col : Byte} (hs : Accepting s) (hfinal : s.stage = .final)
    (hrow : row.toNat < s.n.toNat) (hcol : col.toNat < s.n.toNat) :
    exec (.isdark row col) s = .next { s with
      res := (if getCell s.mx row.toNat col.toNat = .dark then 1#32 else 0#32), err := .ok } := by
  have hinside : refuseIf (row.toNat ≥ s.n.toNat ∨ col.toNat ≥ s.n.toNat) .malformedMatrixAccess = .ok () :=
    refuseIf_eq_ok.2 (by omega)
  rw [exec_isdark, requireStage_of_mem (List.mem_singleton.2 hfinal), ok_bind, hinside, ok_bind, command_ok hs]
  simp only [succeed, setRes, resOfBool, isDark, beq_iff_eq]

/-- Settles O55: inside the matrix the query reads one cell, which the finders and the dark module fix at three places. -/
theorem isdarkReadsOneCellOfTheFinishedSymbol : Obligations.IsdarkReadsOneCellOfTheFinishedSymbol := by
  refine ⟨fun row col s hs hfinal hrow hcol => ⟨_, exec_isdark_of_inside hs hfinal hrow hcol, rfl, ?_⟩,
    fun s hs hfinders hmeta hfinal => ?_⟩
  · exact exec_isdark_of_inside (s := { s with res := _, err := .ok }) hs hfinal hrow hcol
  · obtain ⟨h1, h40, hn⟩ := hmeta.core.side (by simp [hfinal])
    have hstand := (findersOk_iff.1 hfinders).2 (by simp [hfinal]) (by simp [hfinal])
    have hread (row col : Byte) (b : Bool) (hrow : row.toNat < s.n.toNat) (hcol : col.toNat < s.n.toNat)
        (hcell : getCell s.mx row.toNat col.toNat = cellOfBool b) :
        exec (.isdark row col) s = .next { s with res := if b then 1#32 else 0#32, err := .ok } := by
      rw [exec_isdark_of_inside hs hfinal hrow hcol, hcell]
      cases b <;> rfl
    have hsub : (s.n - 8#8).toNat = s.n.toNat - 8 := by bv_omega
    refine ⟨hread 0#8 0#8 true ?_ ?_ ?_, hread (s.n - 8#8) 8#8 true ?_ ?_ ?_, hread 7#8 7#8 false ?_ ?_ ?_⟩
    · exact hn ▸ Nat.succ_pos _
    · exact hn ▸ Nat.succ_pos _
    · exact hstand 0 0 (.inl ⟨by decide, by decide⟩)
    · omega
    · simp only [BitVec.toNat_ofNat]; omega
    · rw [hsub]
      exact hmeta.darkModule hfinal
    · simp only [BitVec.toNat_ofNat]; omega
    · simp only [BitVec.toNat_ofNat]; omega
    · exact hstand 7 7 (.inl ⟨by decide, by decide⟩)

end Sys2Proof.Machine

/-! SUPPORT. The printed tables of the field (40_gf.md section 1), the reduction of exponents and the printed code words. -/

namespace Sys2Proof.Machine

/-! ## `EXP` and `LOG` as the host reads them -/

theorem readElement_exp {i : Nat} (h : i < 255) (s : State) : readElement .exp i s = some (expEntry i).toNat := by
  have hall : ∀ i < 255, rowsEntry expRows i = some (expEntry i).toNat := by decide +kernel
  exact hall i h

theorem readElement_exp_of_le {i : Nat} (h : 255 ≤ i) (s : State) : readElement .exp i s = none := by
  change rowsEntry expRows i = none
  obtain rfl | hpast := h.eq_or_lt
  · decide
  · have hrows : expRows.length = 16 := by decide
    have hrow : expRows[i / 16]? = none := List.getElem?_eq_none (by omega)
    rw [rowsEntry, hrow]
    rfl

theorem readElement_log {n : Byte} (h : n ≠ 0#8) (s : State) : readElement .log n.toNat s = some (logEntry n) := by
  have hall : ∀ n : Byte, n ≠ 0#8 → rowsEntry logRows (n.toNat - 1) = some (logEntry n) := by decide +kernel
  have hne : n.toNat ≠ 0 := fun h0 => h (BitVec.eq_of_toNat_eq h0)
  exact (if_neg hne).trans (hall n h)

/-- The first eight powers of the generator, and the reduction by its polynomial for the others (40_gf.md R80). -/
theorem expEntry_recurrence : (∀ i < 8, (expEntry i).toNat = 2 ^ i) ∧
    ∀ i < 255, 8 ≤ i → expEntry i = expEntry (i - 4) ^^^ expEntry (i - 5) ^^^ expEntry (i - 6) ^^^ expEntry (i - 8) := by
  decide +kernel

/-- Settles O17: the recurrence and the inverse table, entry by entry; the index of a byte is its logarithm. -/
theorem hostReadsExpAndLogTables : Obligations.HostReadsExpAndLogTables := by
  obtain ⟨hlow, hhigh⟩ := expEntry_recurrence
  refine fun s => ⟨fun i hi => ?_, fun i hi h8 => ?_, fun i hi => ?_, fun n hn h1 => ?_, ?_, rfl⟩
  · rw [readElement_exp (by omega), hlow i hi]
  · refine ⟨_, _, _, _, readElement_exp (by omega) s, readElement_exp (by omega) s, readElement_exp (by omega) s,
      readElement_exp (by omega) s, ?_⟩
    rw [readElement_exp hi, hhigh i hi h8]
    simp only [BitVec.toNat_xor]
  · refine ⟨_, readElement_exp hi s, ?_⟩
    rw [readElement_log (expEntry_ne_zero hi), logEntry_expEntry hi]
  · have hbyte : (BitVec.ofNat 8 n).toNat = n := Nat.mod_eq_of_lt hn
    have hne : BitVec.ofNat 8 n ≠ 0#8 := fun h0 => by rw [h0] at hbyte; simp at hbyte; omega
    refine ⟨logEntry (BitVec.ofNat 8 n), logEntry_lt _, ?_, fun j hj => ?_⟩
    · rw [readElement_exp (logEntry_lt _), expEntry_logEntry hne, hbyte]
    · obtain hin | hout := Nat.lt_or_ge j 255
      · rw [readElement_exp hin, Option.some.injEq] at hj
        rw [← logEntry_expEntry hin, BitVec.eq_of_toNat_eq (hj.trans hbyte.symm)]
      · exact nomatch (readElement_exp_of_le hout s).symm.trans hj
  · exact readElement_exp_of_le (Nat.le_refl _) s

/-- Settles O18: the residue is the floored remainder. -/
theorem exponentReductionIsTheFlooredRemainder : Obligations.ExponentReductionIsTheFlooredRemainder := by
  refine ⟨fun n => ?_, fun n hn => ⟨logEntry n, glog_of_ne_zero hn, gexp_logEntry hn⟩⟩
  have hlt : (n % 255).toNat < 255 := by omega
  refine ⟨(n % 255).toNat, hlt, ⟨n / 255, by omega⟩, gexp_eq_expEntry n, gexp_ne_zero n, ?_, fun r' hr' ⟨k, hk⟩ => by omega⟩
  rw [glog_of_ne_zero (gexp_ne_zero n), gexp_eq_expEntry, logEntry_expEntry hlt]

/-! ## The code words of the metadata (48_bch.md section 3) -/

theorem bchFormat_data (d : BitVec 5) : ((bchFormat d).toNat ^^^ 0x5412) / 2 ^ 10 = d.toNat ∧
    bchRemainder 0x537 15 ((bchFormat d).toNat ^^^ 0x5412) = 0 ∧ bchFormat d ≠ 0#15 := by
  revert d
  decide +kernel

theorem bchVersion_data (v : BitVec 6) :
    (bchVersion v).toNat / 2 ^ 12 = v.toNat ∧ bchRemainder 0x1F25 18 (bchVersion v).toNat = 0 := by
  revert v
  decide +kernel

theorem bchFormat_distance (d d' : BitVec 5) : d ≠ d' →
    7 ≤ ((List.range 15).filter (fun i => (bchFormat d).getLsbD i != (bchFormat d').getLsbD i)).length := by
  revert d d'
  decide +kernel

theorem bchVersion_distance (v v' : BitVec 6) : v ≠ v' →
    8 ≤ ((List.range 18).filter (fun i => (bchVersion v).getLsbD i != (bchVersion v').getLsbD i)).length := by
  revert v v'
  decide +kernel

/-- Settles O46: the 32 format words and the 64 version words, each and in pairs. -/
theorem bchWordsCarryTheirDataAndDiffer : Obligations.BchWordsCarryTheirDataAndDiffer :=
  ⟨bchFormat_data, bchVersion_data, bchFormat_distance, bchVersion_distance⟩

end Sys2Proof.Machine

/-! SUPPORT. Products and divisions of polynomials (41_poly.md R91, R92) and the parity of a block (42_rs.md R101). -/

namespace Sys2Proof.Machine

/-! ## `PMUL` -/

theorem exec_pmul_of_polyMul {s : State} {p : Poly} (hs : Accepting s)
    (hroom : ¬ (s.pa.length > 0 ∧ s.pb.length > 0 ∧ s.pa.length + s.pb.length - 1 > lenMax)) (hp : polyMul s.pa s.pb = .ok p) :
    exec .pmul s = .next { s with pr := p, err := .ok } := by
  have hcheck := (refuseIf_eq_ok (e := .illegalCommand) (u := ())).2 hroom
  rw [exec_pmul, hcheck, ok_bind, hp, ok_bind, command_ok hs]
  rfl

/-- Settles O25: an empty operand has the empty product, and the coefficients of the others are those of R91. -/
theorem pmulWritesTheProductOfPaAndPb : Obligations.PmulWritesTheProductOfPaAndPb := by
  refine fun s hs => ⟨fun hempty => ?_, fun ha hb hza hzb hroom => ?_, fun ha hb hover => ?_⟩
  · refine exec_pmul_of_polyMul hs (fun ⟨hpa, hpb, _⟩ => ?_) ?_
    · obtain h | h := hempty
      · exact List.length_pos_iff.1 hpa h
      · exact List.length_pos_iff.1 hpb h
    · obtain h | h := hempty
      · rw [h, polyMul_nil_left]
      · rw [h, polyMul_nil_right]
  · obtain ⟨p, hp, hlen, hcan⟩ := polyMul_ok ha hb hza hzb
    exact ⟨p, exec_pmul_of_polyMul hs (fun h => absurd hroom (Nat.not_le.2 h.2.2)) hp, hlen, hcan,
      polyMul_getElem? ha hb hza hzb hp⟩
  · exact ((raises_pmul_iff hs).2 (.inl ⟨rfl, ha, hb, hover⟩)).turnedAway rfl

/-! ## Sums of coefficient sequences -/

theorem zeros_append_zeros (j k : Nat) (p : List Byte) : zeros j ++ (zeros k ++ p) = zeros (j + k) ++ p := by
  rw [← List.append_assoc, zeros, zeros, zeros, List.replicate_add]

theorem zeros_succ (k : Nat) : zeros (k + 1) = 0#8 :: zeros k := rfl

theorem xorLead_zeros : ∀ (k : Nat) (ys : List Byte), xorLead (zeros k) ys = ys
  | 0, _ => rfl
  | _ + 1, [] => rfl
  | k + 1, y :: ys => by rw [zeros_succ, xorLead, BitVec.zero_xor, xorLead_zeros k ys]

theorem xorLead_xorLead : ∀ m ys : List Byte, xorLead m (xorLead m ys) = ys
  | [], _ => rfl
  | _ :: _, [] => rfl
  | x :: m, y :: ys => by rw [xorLead, xorLead, xorLead_xorLead m ys, ← BitVec.xor_assoc, BitVec.xor_self, BitVec.zero_xor]

theorem xorAll_xorLead : ∀ m ys zs : List Byte, xorAll (xorLead m ys) zs = xorLead m (xorAll ys zs)
  | [], _, _ => rfl
  | _ :: _, [], _ => rfl
  | _ :: _, _ :: _, [] => rfl
  | x :: m, y :: ys, z :: zs => by
    change (x ^^^ y ^^^ z) :: xorAll (xorLead m ys) zs = (x ^^^ (y ^^^ z)) :: xorLead m (xorAll ys zs)
    rw [xorAll_xorLead m ys zs, BitVec.xor_assoc]

theorem xorAll_append {p p' : List Byte} (q q' : List Byte) (h : p.length = p'.length) :
    xorAll (p ++ q) (p' ++ q') = xorAll p p' ++ xorAll q q' := List.zipWith_append h

theorem xorAll_zeros_left : ∀ p : List Byte, xorAll (zeros p.length) p = p
  | [] => rfl
  | _ :: p => congrArg₂ List.cons (BitVec.zero_xor) (xorAll_zeros_left p)

theorem xorAll_zeros_right : ∀ p : List Byte, xorAll p (zeros p.length) = p
  | [] => rfl
  | _ :: p => congrArg₂ List.cons (BitVec.xor_zero) (xorAll_zeros_right p)

/-- Adding the same sequence twice changes nothing. -/
theorem xorAll_xorAll : ∀ {p q : List Byte}, p.length = q.length → xorAll (xorAll p q) q = p
  | [], _, _ => rfl
  | x :: p, y :: q, h => by
    change (x ^^^ y ^^^ y) :: xorAll (xorAll p q) q = x :: p
    rw [xorAll_xorAll (Nat.succ.inj h), BitVec.xor_assoc, BitVec.xor_self, BitVec.xor_zero]

/-! ## Products with zero coefficients -/

theorem timesRows_length : ∀ q b : List Byte, (timesRows q b).length = q.length + (b.length - 1)
  | [], b => by simp [timesRows]
  | x :: q, b => by rw [timesRows, xorLead_length, List.length_cons, timesRows_length q b, List.length_cons]; omega

/-- Zeros before a factor are zeros before the product. -/
theorem timesRows_zeros_append (q b : List Byte) : ∀ k, timesRows (zeros k ++ q) b = zeros k ++ timesRows q b
  | 0 => rfl
  | k + 1 => by
    have hrow : b.map (gfTimes 0#8) = zeros b.length := by
      rw [zeros, ← List.map_const']
      exact List.map_congr_left fun _ _ => if_pos (.inl rfl)
    rw [zeros_succ, List.cons_append, timesRows, hrow, xorLead_zeros, timesRows_zeros_append q b k, List.cons_append]

theorem timesRows_zeros (b : List Byte) (k : Nat) : timesRows (zeros k) b = zeros (k + (b.length - 1)) := by
  simpa [timesRows, zeros, List.replicate_append_replicate] using timesRows_zeros_append [] b k

/-! ## The division -/

/-- The exponents of a product may be reduced first (40_gf.md R82). -/
theorem gexp_logEntry_gexp_add (m n : Int) : gexp ((logEntry (gexp m) : Int) + n) = gexp (m + n) := by
  rw [gexp_eq_expEntry m, logEntry_expEntry (by omega), gexp_eq_expEntry, gexp_eq_expEntry (m + n)]
  congr 1
  omega

/-- The ratio of two non-zero coefficients, as the division takes it (41_poly.md R92). -/
def ratio (x y : Byte) : Byte := gexp ((logEntry x : Int) - (logEntry y : Int))

theorem gfTimes_ratio {x y z : Byte} (hz : z ≠ 0#8) :
    gfTimes (ratio x y) z = gexp ((logEntry z : Int) + ((logEntry x : Int) - (logEntry y : Int))) := by
  have hne : ratio x y ≠ 0#8 := gexp_ne_zero _
  rw [gfTimes, if_neg (not_or.2 ⟨hne, hz⟩), gfProduct, ratio, gexp_logEntry_gexp_add, Int.add_comm]

theorem gfTimes_ratio_self {x y : Byte} (hx : x ≠ 0#8) (hy : y ≠ 0#8) : gfTimes (ratio x y) y = x := by
  rw [gfTimes_ratio hy, show (logEntry y : Int) + ((logEntry x : Int) - (logEntry y : Int)) = logEntry x by omega,
    gexp_logEntry hx]

/-- An iteration cancels the first coefficient, XORs the scaled divisor into the next ones and strips. -/
theorem modStep_cons {x y : Byte} {xs ys a' : List Byte} (h : modStep (x :: xs) (y :: ys) = .ok a') :
    x ≠ 0#8 ∧ y ≠ 0#8 ∧ a' = strip (xorLead (ys.map (gfTimes (ratio x y))) xs) := by
  have hnz := modStep_noZero h
  rw [modStep, bind_eq_ok] at h
  obtain ⟨la, hla, h⟩ := h
  obtain ⟨lb, hlb, h⟩ := bind_eq_ok.1 h
  obtain ⟨hx, rfl⟩ : x ≠ 0#8 ∧ la = logEntry x := glog_eq_ok.1 hla
  obtain ⟨hy, rfl⟩ : y ≠ 0#8 ∧ lb = logEntry y := glog_eq_ok.1 hlb
  have hscaled : (y :: ys).mapM (scaleTerm ((logEntry x : Int) - (logEntry y : Int)))
      = .ok ((y :: ys).map (gfTimes (ratio x y))) :=
    mapM_ok_of_forall fun z hz => by simp [scaleTerm, glog_of_ne_zero (hnz z hz), gfTimes_ratio (hnz z hz)]
  obtain ⟨row, hrow, h⟩ := bind_eq_ok.1 h
  obtain rfl : _ = row := Except.ok.inj (hscaled.symm.trans hrow)
  cases h
  refine ⟨hx, hy, ?_⟩
  rw [List.map_cons, gfTimes_ratio_self hx hy, xorLead, BitVec.xor_self, strip_cons_zero]

/-- `a`, with zeros before it to length `n`, is a multiple of `b` plus `r`, with zeros before it likewise. -/
def DivisionAt (n : Nat) (a b r : List Byte) : Prop :=
  ∃ q, q.length + b.length = n + 1 ∧ zeros (n - a.length) ++ a = xorAll (timesRows q b) (zeros (n - r.length) ++ r)

theorem divisionAt_self {n : Nat} {b r : List Byte} (hr : r.length ≤ n) (hpos : 0 < b.length) (hb : b.length ≤ n + 1) :
    DivisionAt n r b r := by
  refine ⟨zeros (n + 1 - b.length), by rw [zeros_length]; omega, ?_⟩
  have hlen : (zeros (n - r.length) ++ r).length = n + 1 - b.length + (b.length - 1) := by
    rw [List.length_append, zeros_length]
    omega
  rw [timesRows_zeros, ← hlen, xorAll_zeros_left]

/-- One iteration puts one coefficient before the quotient of what it leaves. -/
theorem divisionAt_of_modStep {n : Nat} {x y : Byte} {xs ys a' r : List Byte} (hstep : modStep (x :: xs) (y :: ys) = .ok a')
    (hr : r.length ≤ xs.length) (hn : xs.length < n) (h : DivisionAt xs.length a' (y :: ys) r) :
    DivisionAt n (x :: xs) (y :: ys) r := by
  obtain ⟨hx, hy, rfl⟩ := modStep_cons hstep
  obtain ⟨q, hq, hdiv⟩ := h
  have hxs : (xorLead (ys.map (gfTimes (ratio x y))) xs).length = xs.length := xorLead_length _ _
  rw [← hxs, zeros_append_strip, hxs] at hdiv
  refine ⟨zeros (n - (xs.length + 1)) ++ ratio x y :: q, ?_, ?_⟩
  · simp only [List.length_append, zeros_length, List.length_cons] at hq ⊢
    omega
  · have hsplit : n - r.length = n - (xs.length + 1) + (xs.length - r.length + 1) := by omega
    have hrow : timesRows (ratio x y :: q) (y :: ys) =
        x :: xorLead (ys.map (gfTimes (ratio x y))) (timesRows q (y :: ys)) := by
      rw [timesRows, List.map_cons, gfTimes_ratio_self hx hy, xorLead, BitVec.xor_zero]
    have hself := xorAll_zeros_left (zeros (n - (xs.length + 1)))
    rw [zeros_length] at hself
    rw [timesRows_zeros_append, hrow, hsplit, ← zeros_append_zeros, xorAll_append _ _ rfl, hself, zeros_succ,
      List.cons_append, xorAll, List.zipWith_cons_cons, BitVec.xor_zero, ← xorAll, xorAll_xorLead, ← hdiv, xorLead_xorLead,
      List.length_cons]

/-- What the loop leaves, shorter than the divisor, is a remainder. -/
theorem divisionAt_of_modLoop {b r : Poly} (hr : r.length < b.length) {fuel n : Nat} {a : Poly} (h : modLoop fuel a b = .ok r)
    (ha : a.length ≤ n) (hb : b.length ≤ n + 1) : DivisionAt n a b r := by
  induction fuel generalizing a n with
  | zero =>
    obtain rfl : a = r := Except.ok.inj h
    exact divisionAt_self ha (Nat.zero_lt_of_lt hr) hb
  | succ fuel ih =>
    by_cases hshort : a.length < b.length
    · obtain rfl : a = r := Except.ok.inj ((modLoop_of_short hshort).symm.trans h)
      exact divisionAt_self ha (Nat.zero_lt_of_lt hr) hb
    · rw [modLoop_of_long (Nat.not_lt.1 hshort)] at h
      obtain ⟨a', hstep, hrest⟩ := bind_eq_ok.1 h
      have hbpos := Nat.zero_lt_of_lt hr
      obtain ⟨y, ys, rfl⟩ := List.exists_cons_of_length_pos hbpos
      obtain ⟨x, xs, rfl⟩ := List.exists_cons_of_length_pos (hbpos.trans_le (Nat.not_lt.1 hshort))
      have ha' := modStep_shortens hstep
      simp only [List.length_cons] at hr hshort ha ha' ih
      exact divisionAt_of_modStep hstep (by omega) ha (ih hrest (by omega) (by omega))

theorem exec_pmod_of_polyMod {s : State} {r : Poly} (hs : Accepting s) (hr : polyMod s.pa s.pb = .ok r) :
    exec .pmod s = .next { s with pr := r, err := .ok } := by
  rw [exec_pmod, hr, ok_bind, command_ok hs]
  rfl

/-- Settles O26: the division without zeros before the dividend. -/
theorem pmodWritesTheRemainderOfPaByPb : Obligations.PmodWritesTheRemainderOfPaByPb := by
  refine fun s hs => ⟨fun hcan hne hb hlen => ?_, fun hshort => exec_pmod_of_polyMod hs (polyMod_of_short hshort)⟩
  obtain ⟨r, hr, hshort, hrcan⟩ := polyMod_ok hcan hne hb
  obtain ⟨q, hq, hdiv⟩ := divisionAt_of_modLoop hshort hr (Nat.le_refl _) (by omega)
  have hpos := List.length_pos_iff.2 hne
  refine ⟨r, q, exec_pmod_of_polyMod hs hr, hshort, hrcan, by rw [timesRows_length]; omega, ?_⟩
  rwa [Nat.sub_self] at hdiv

/-- Settles O29: the data times x^ec is a multiple of the generator plus the remainder, which the parity is with zeros before it. -/
theorem dataWithParityIsAMultipleOfTheGenerator : Obligations.DataWithParityIsAMultipleOfTheGenerator := by
  intro d ec h
  obtain ⟨g, hg, hlen⟩ := generator_ok (show ec ≤ 255 by omega)
  obtain ⟨r, hr, hshort, -⟩ := polyMod_ok (strip_canonical (d ++ zeros ec)) (List.ne_nil_of_length_eq_add_one hlen)
    (generator_noZero h hg)
  have hencode : rsEncode d ec = .ok (zeros (ec - r.length) ++ r) := by rw [rsEncode_of_generator hg, hr, ok_bind]
  have he : (zeros (ec - r.length) ++ r).length = ec := by
    rw [List.length_append, zeros_length]
    omega
  refine ⟨g, _, hg, hencode, he, ?_, ?_⟩
  · have hn : (d ++ zeros ec).length = d.length + ec := by rw [List.length_append, zeros_length]
    obtain ⟨q, hq, hdiv⟩ := divisionAt_of_modLoop hshort hr (strip_length_le _) (by omega)
    have hql : q.length = d.length := by omega
    have hsplit : d.length + ec - r.length = d.length + (ec - r.length) := by omega
    rw [zeros_append_strip, hn, hsplit, ← zeros_append_zeros] at hdiv
    refine ⟨q, hql, ?_⟩
    have hmul : (timesRows q g).length = (zeros d.length ++ (zeros (ec - r.length) ++ r)).length := by
      rw [timesRows_length, List.length_append, zeros_length, he]
      omega
    have hparity := xorAll_zeros_left (zeros (ec - r.length) ++ r)
    rw [he] at hparity
    rw [← xorAll_xorAll hmul, ← hdiv, xorAll_append _ _ (zeros_length _).symm, xorAll_zeros_right, hparity]
  · rw [← hencode, rsEncode, rsEncode, List.cons_append, strip_cons_zero]

end Sys2Proof.Machine

/-! SUPPORT. The choice of a version (43_version_select.md) and what every entry of the block table keeps (42_rs.md section 4). -/

namespace Sys2Proof.Machine

/-! ## `VSEL` and `SETVL` -/

/-- In a growing list the scan passes over no version that holds the payload. -/
theorem tableCapacity_lt_of_firstFit {len v : Nat} {lvl : Level} : ∀ {vs : List Nat}, (∀ u ∈ vs, 1 ≤ u ∧ u ≤ 40) →
    vs.Pairwise (· < ·) → firstFit len lvl vs = .ok v → ∀ u ∈ vs, u < v → tableCapacity u lvl < len
  | w :: vs, hvs, hsorted, h, u, hu, huv => by
    obtain ⟨h1, h2⟩ := hvs w List.mem_cons_self
    obtain ⟨hw, hsorted'⟩ := List.pairwise_cons.1 hsorted
    rw [firstFit_cons h1 h2] at h
    split at h
    · obtain rfl : w = v := Except.ok.inj h
      obtain rfl | hmem := List.mem_cons.1 hu
      · exact absurd huv (Nat.lt_irrefl _)
      · exact absurd huv (Nat.lt_asymm (hw u hmem))
    · rename_i hcap
      obtain rfl | hmem := List.mem_cons.1 hu
      · exact Nat.not_le.1 hcap
      · exact tableCapacity_lt_of_firstFit (fun z hz => hvs z (List.mem_cons_of_mem _ hz)) hsorted' h u hmem huv

theorem exec_setvl_of_range {lvl : Level} {v : Byte} {s : State} (hs : Accepting s) (h1 : 1 ≤ v.toNat) (h2 : v.toNat ≤ 40) :
    exec (.setvl lvl v) s = .next { s with
      ver := BitVec.ofNat 6 v.toNat, ecl := lvl, stage := .none, n := 0#8, mx := [], err := .ok } := by
  have hv := versionOperand_eq_ok.2 ⟨⟨h1, h2⟩, rfl⟩
  simp only [exec, execSetvl, hv, ok_bind, pure_eq_ok, command_ok hs]
  rfl

/-- Settles O30: the scan takes the versions in order. -/
theorem vselPicksTheSmallestVersionSetvlTheGivenOne : Obligations.VselPicksTheSmallestVersionSetvlTheGivenOne := by
  refine fun lvl s hs => ⟨fun hfits => ?_, fun hlong => ((raises_vsel_iff hs).2 ⟨rfl, hlong⟩).turnedAway rfl,
    fun v h1 h2 => exec_setvl_of_range hs h1 h2⟩
  obtain ⟨v, hv, h1, h2, hcap⟩ := selectVersion_ok hfits
  refine ⟨v, h1, h2, ⟨_, capacity_eq_table lvl h1 h2, hcap⟩, fun u hu1 huv => ?_, exec_vsel_of_select hs hv⟩
  have hu40 : u ≤ 40 := by omega
  exact ⟨_, capacity_eq_table lvl hu1 hu40, tableCapacity_lt_of_firstFit (fun _ => mem_versions.1) List.pairwise_lt_range' hv u
    (mem_versions.2 ⟨hu1, hu40⟩) huv⟩

/-! ## The 160 entries -/

/-- The header takes two codewords up to version 9 and three above (43_version_select.md R110, R111). -/
theorem tableData_eq_tableCapacity (lvl : Level) :
    ∀ v ≤ 40, 1 ≤ v → tableData v lvl = tableCapacity v lvl + (if v ≤ 9 then 2 else 3) := by
  cases lvl <;> decide +kernel

theorem tableCapacity_strictMono (lvl : Level) : ∀ v < 40, 1 ≤ v → tableCapacity v lvl < tableCapacity (v + 1) lvl := by
  cases lvl <;> decide +kernel

theorem tableTotal_eq_level_l (lvl : Level) : ∀ v ≤ 40, tableTotal v lvl = tableTotal v .l := by
  cases lvl <;> decide +kernel

theorem tableBlocks_ec (lvl : Level) : ∀ v ≤ 40, 1 ≤ v → tableBlocks v lvl ≠ [] ∧
    ∃ ec < 31, 7 ≤ ec ∧ ∀ b ∈ tableBlocks v lvl, b.total = b.data + ec := by
  cases lvl <;> decide +kernel

/-- A length is within the capacity exactly where it fits with its header (44_bitbuf.md R121). -/
theorem le_tableCapacity_iff {v : Nat} (lvl : Level) (h1 : 1 ≤ v) (h2 : v ≤ 40) (len : Nat) :
    len ≤ tableCapacity v lvl ↔ 4 + lenBits v + 8 * len ≤ 8 * tableData v lvl := by
  rw [tableData_eq_tableCapacity lvl v h2 h1, lenBits]
  split <;> omega

/-- Settles O31, entry by entry of the table. -/
theorem blockTableTotalsAndCapacities : Obligations.BlockTableTotalsAndCapacities := by
  intro lvl v h1 h2
  obtain ⟨hne, ec, hec, h7, hall⟩ := tableBlocks_ec lvl v h2 h1
  refine ⟨_, _, dataCw_eq_table lvl h1 h2, capacity_eq_table lvl h1 h2, tableData_eq_tableCapacity lvl v h2 h1, fun h40 => ?_,
    le_tableCapacity_iff lvl h1 h2, ⟨tableTotal v .l, fun lvl' => ?_⟩, _, ec,
    blocks_eq_table lvl h1 h2, hne, h7, Nat.le_of_lt_succ hec, hall⟩
  · exact ⟨_, capacity_eq_table lvl (Nat.succ_pos v) h40, tableCapacity_strictMono lvl v h40 h1⟩
  · rw [totalCw_eq_table lvl' h1 h2, tableTotal_eq_level_l lvl' v h2]

end Sys2Proof.Machine

/-! SUPPORT. Numbers and bytes as bits, most significant first (20_memory.md section 2), and the layout of the encoded data
(44_bitbuf.md R121). -/

namespace Sys2Proof.Machine

/-! ## Numbers as bits -/

theorem msbBits_succ (num n : Nat) : msbBits num (n + 1) = num.testBit n :: msbBits num n := by
  rw [msbBits, List.range_succ_eq_map, List.map_cons, List.map_map, msbBits]
  refine congrArg₂ List.cons (by simp) (List.map_congr_left fun i _ => ?_)
  rw [Function.comp_apply]
  congr 1
  omega

theorem numOfBits_cons (b : Bool) (bits : List Bool) : numOfBits (b :: bits) = b.toNat * 2 ^ bits.length + numOfBits bits := by
  have hfold : ∀ (bits : List Bool) (acc : Nat),
      bits.foldl (fun acc b => 2 * acc + b.toNat) acc = acc * 2 ^ bits.length + numOfBits bits := by
    intro bits
    induction bits with
    | nil => simp [numOfBits]
    | cons b bits ih =>
      intro acc
      rw [numOfBits, List.foldl_cons, List.foldl_cons, ih, ih (2 * 0 + b.toNat), List.length_cons]
      ring
  rw [numOfBits, List.foldl_cons, hfold, Nat.mul_zero, Nat.zero_add]

/-- The bits of a number are the number again, its higher bits dropped. -/
theorem numOfBits_msbBits (num : Nat) : ∀ n, numOfBits (msbBits num n) = num % 2 ^ n
  | 0 => by simp [msbBits, numOfBits, Nat.mod_one]
  | n + 1 => by
    rw [msbBits_succ, numOfBits_cons, msbBits_length, numOfBits_msbBits num n, Nat.toNat_testBit, Nat.mod_pow_succ]
    ring

/-! ## `BBENC` -/

theorem VersionSelected.ne_zero {s : State} (h : VersionSelected s) : s.ver ≠ 0#6 := fun h0 => by simp [VersionSelected, h0] at h

theorem payload_length_lt_of_fits {v len : Nat} {lvl : Level} (h1 : 1 ≤ v) (h2 : v ≤ 40)
    (h : 4 + lenBits v + 8 * len ≤ 8 * tableData v lvl) : len < 2 ^ lenBits v := by
  have hmax : ∀ v ≤ 40, tableCapacity v lvl < 2 ^ lenBits v := by cases lvl <;> decide +kernel
  exact ((le_tableCapacity_iff lvl h1 h2 len).2 h).trans_lt (hmax v h2)

/-- The length field has whole bytes, so with the mode and the terminator the payload begins and ends at a byte boundary. -/
theorem encodeData_eq {payload : List Byte} {v d : Nat} {lvl : Level} (hd : dataCw v lvl = .ok d)
    (hfit : 4 + lenBits v + 8 * payload.length ≤ 8 * d) :
    ∃ pads, encodeData payload v lvl = .ok ([false, true, false, false] ++ msbBits payload.length (lenBits v) ++
      payload.flatMap (fun b => msbBits b.toNat 8) ++ [false, false, false, false] ++
      (List.range pads).flatMap (fun k => msbBits (if k % 2 = 0 then 0xEC else 0x11) 8)) := by
  have hmode : msbBits modeByte 4 = [false, true, false, false] := by decide
  have hend : msbBits 0 4 = [false, false, false, false] := by decide
  have hlen := headerAndPayload_length payload v
  have h8 : lenBits v % 8 = 0 := by
    unfold lenBits
    split <;> rfl
  have hterm : terminate (headerAndPayload payload v) (8 * d) = headerAndPayload payload v ++ [false, false, false, false] := by
    rw [terminate, if_pos (by omega), putBits, hend]
  have halign : alignToByte (headerAndPayload payload v ++ [false, false, false, false]) =
      headerAndPayload payload v ++ [false, false, false, false] := by
    have hwhole : (headerAndPayload payload v ++ [false, false, false, false]).length % 8 = 0 := by
      rw [List.length_append, hlen]
      simp only [List.length_cons, List.length_nil]
      omega
    rw [alignToByte, hwhole]
    exact List.append_nil _
  have hpads : encodeData payload v lvl = .ok
      (padToCapacity (headerAndPayload payload v ++ [false, false, false, false]) (8 * d)) := by
    simp [encodeData, hd, Nat.not_lt.2 hfit, hterm, halign]
  exact ⟨_, by rw [hpads, padToCapacity, headerAndPayload, putBits, putBits, hmode]; rfl⟩

/-- Settles O32: the fields are those of R121, and the length field is wide enough for every payload that fits. -/
theorem bbencLaysOutTheEncodedPayload : Obligations.BbencLaysOutTheEncodedPayload := by
  intro s hs hver hfits
  obtain ⟨h1, h2⟩ := id hver
  have hd := dataCw_eq_table s.ecl h1 h2
  have hroom : 4 + lenBits s.ver.toNat + 8 * s.payload.length ≤ 8 * tableData s.ver.toNat s.ecl :=
    Nat.not_lt.1 fun hover => hfits ⟨_, hd, hover⟩
  obtain ⟨pads, hbits⟩ := encodeData_eq hd hroom
  obtain ⟨bits, hbits', hlen⟩ := encodeData_ok hd hroom
  obtain rfl := Except.ok.inj (hbits'.symm.trans hbits)
  refine ⟨_, pads, _, hd, exec_bbenc_of_encode hs hver.ne_zero hbits, rfl, hlen, ?_⟩
  have hfield : ∀ rest, (([false, true, false, false] ++ msbBits s.payload.length (lenBits s.ver.toNat) ++ rest).drop 4).take
      (lenBits s.ver.toNat) = msbBits s.payload.length (lenBits s.ver.toNat) := fun rest => by
    rw [List.append_assoc, List.drop_append_of_le_length (by simp)]
    exact List.take_left' (msbBits_length _ _)
  rw [List.append_assoc _ (List.flatMap _ _), List.append_assoc, hfield, numOfBits_msbBits,
    Nat.mod_eq_of_lt (payload_length_lt_of_fits h1 h2 hroom)]

/-! ## Bytes as bits -/

theorem bytesOfBits_append : ∀ {chunk : List Bool}, chunk.length = 8 → ∀ rest,
    bytesOfBits (chunk ++ rest) = BitVec.ofNat 8 (numOfBits chunk) :: bytesOfBits rest
  | [_, _, _, _, _, _, _, _], _, _ => rfl

theorem bytesOfBits_flatMap_msbBits : ∀ bs : List Byte, bytesOfBits (bs.flatMap fun b => msbBits b.toNat 8) = bs
  | [] => rfl
  | b :: bs => by
    rw [List.flatMap_cons, bytesOfBits_append (msbBits_length _ _), numOfBits_msbBits, Nat.mod_eq_of_lt b.isLt,
      BitVec.ofNat_toNat, BitVec.setWidth_eq, bytesOfBits_flatMap_msbBits bs]

theorem numOfBits_lt : ∀ bits : List Bool, numOfBits bits < 2 ^ bits.length
  | [] => Nat.one_pos
  | b :: bits => by
    have := numOfBits_lt bits
    have := b.toNat_le
    rw [numOfBits_cons, List.length_cons, Nat.pow_succ]
    nlinarith

/-- Eight bits as the sum of their weights (20_memory.md R43). -/
theorem numOfBits_eq_sum : ∀ {chunk : List Bool}, chunk.length = 8 →
    numOfBits chunk = ((List.range 8).map (fun i => (chunk.getD i false).toNat * 2 ^ (7 - i))).sum
  | [_, _, _, _, _, _, _, _], _ => by
    simp [numOfBits, List.range_succ]
    ring

theorem bytesOfBits_eq_cons {bits : List Bool} (h : 8 ≤ bits.length) :
    bytesOfBits bits = BitVec.ofNat 8 (numOfBits (bits.take 8)) :: bytesOfBits (bits.drop 8) := by
  rw [← bytesOfBits_append (by rw [List.length_take]; omega), List.take_append_drop]

/-- Codeword `k` is the sum of its bits' weights, over the bits from `8k` on. -/
theorem bytesOfBits_getElem? {bits : List Bool} {k : Nat} (h : k < bits.length / 8) : ((bytesOfBits bits)[k]?.map BitVec.toNat) =
    some ((List.range 8).map (fun i => (bits.getD (8 * k + i) false).toNat * 2 ^ (7 - i))).sum := by
  induction k generalizing bits with
  | zero =>
    have hchunk : (bits.take 8).length = 8 := by rw [List.length_take]; omega
    have hlt := numOfBits_lt (bits.take 8)
    rw [hchunk] at hlt
    rw [bytesOfBits_eq_cons (by omega), List.getElem?_cons_zero, Option.map_some, BitVec.toNat_ofNat, Nat.mod_eq_of_lt hlt,
      numOfBits_eq_sum hchunk]
    refine congrArg (fun l => some (List.sum l)) (List.map_congr_left fun i hi => ?_)
    rw [List.getD, List.getElem?_take_of_lt (List.mem_range.1 hi), Nat.mul_zero, Nat.zero_add, List.getD]
  | succ k ih =>
    rw [bytesOfBits_eq_cons (by omega), List.getElem?_cons_succ, ih (by rw [List.length_drop]; omega)]
    refine congrArg (fun l => some (List.sum l)) (List.map_congr_left fun i _ => ?_)
    rw [List.getD, List.getElem?_drop, List.getD, show 8 + (8 * k + i) = 8 * (k + 1) + i by omega]

/-- The bits the data mapping consumes are those of the codewords one after another (46_matrix.md R157). -/
theorem streamBit_eq_getD : ∀ (cw : List Byte) (idx : Nat),
    streamBit cw idx = (cw.flatMap (fun b => (List.range 8).map (fun i => b.getLsbD (7 - i)))).getD idx false
  | [], idx => by simp [streamBit]
  | b :: cw, idx => by
    have hlen : ((List.range 8).map (fun i => b.getLsbD (7 - i))).length = 8 := rfl
    rw [List.flatMap_cons]
    by_cases h : idx < 8
    · have hdiv : idx / 8 = 0 := by omega
      rw [List.getD_append _ _ _ _ (by rwa [hlen]), streamBit, hdiv, Nat.mod_eq_of_lt h]
      simp [List.getD, h]
    · have hdiv : idx / 8 = (idx - 8) / 8 + 1 := by omega
      have hmod : idx % 8 = (idx - 8) % 8 := by omega
      rw [List.getD_append_right _ _ _ _ (by rw [hlen]; omega), hlen, ← streamBit_eq_getD cw (idx - 8), streamBit, hdiv, hmod]
      rfl

/-- Settles O33: the codewords and their bits, both ways. -/
theorem codewordBitsRunMostSignificantFirst : Obligations.CodewordBitsRunMostSignificantFirst :=
  ⟨fun bits _ => ⟨bytesOfBits_length bits, fun _ => bytesOfBits_getElem?⟩, bytesOfBits_flatMap_msbBits, streamBit_eq_getD⟩

end Sys2Proof.Machine

/-! SUPPORT. The blocks of a symbol and the order of its final codewords (45_block_split.md section 1). -/

namespace Sys2Proof.Machine

/-! ## The two orders -/

/-- One turn of the loop appends codeword `i` of every block that has one. -/
theorem appendTurn_eq (i : Nat) : ∀ (blks : List (List Byte)) (out : List Byte),
    appendTurn blks out i = out ++ blks.filterMap (fun b => b[i]?)
  | [], out => (List.append_nil out).symm
  | b :: blks, out => by
    rw [appendTurn, List.foldl_cons, ← appendTurn, appendTurn_eq i blks]
    by_cases h : i < b.length <;> simp [h]

/-- The turns of the loop are the round-robin order. -/
theorem foldl_appendTurn (blks : List (List Byte)) (out : List Byte) :
    (turns blks).foldl (appendTurn blks) out = out ++ interleaved blks := by
  have hfold : ∀ (l : List Nat) (out : List Byte),
      l.foldl (appendTurn blks) out = out ++ l.flatMap (fun i => blks.filterMap (fun b => b[i]?)) := by
    intro l
    induction l with
    | nil => exact fun out => (List.append_nil out).symm
    | cons i l ih => exact fun out => by rw [List.foldl_cons, ih, appendTurn_eq, List.flatMap_cons, List.append_assoc]
  rw [hfold, turns, interleaved, maxLength_eq_foldr]

theorem interleaved_singleton (b : List Byte) : interleaved [b] = b := by
  have hlen : maxLength [b] = b.length := Nat.zero_max _
  have hturn (i : Nat) : [b].filterMap (fun b => b[i]?) = b[i]?.toList := by cases h : b[i]? <;> simp [h]
  rw [interleaved, hlen]
  simp only [hturn]
  rw [flatMap_getElem?_toList, List.take_length]

/-- Settles O35. -/
theorem assemblyOrdersHoldTheSameCodewords : Obligations.AssemblyOrdersHoldTheSameCodewords := by
  refine ⟨fun dblk ecblk => ⟨rfl, ?_⟩, fun dblk ecblk => ⟨rfl, assemble_perm .roundRobin dblk ecblk⟩, fun d e => ?_⟩
  · rw [roundRobinLoop, foldl_appendTurn, foldl_appendTurn]
    rfl
  · rw [assembleRoundRobin, interleaved_singleton, interleaved_singleton]
    simp [assembleSequential]

/-! ## The blocks -/

/-- What the split answers: the data cut in order into the blocks, and the parity of each (45_block_split.md R135). -/
theorem splitBlocks_spec : ∀ {bs : List Block} {dcw : List Byte} {parts : List (List Byte) × List (List Byte)},
    (∀ b ∈ bs, b.data ≤ b.total ∧ b.total - b.data ≤ 254) → dcw.length = (bs.map Block.data).sum →
    splitBlocks dcw bs = .ok parts →
    parts.1.flatten = dcw ∧ parts.1.map List.length = bs.map Block.data ∧ parts.2.length = bs.length ∧
      ∀ (k : Nat) (b : Block) (data : List Byte), bs[k]? = some b → parts.1[k]? = some data →
        ∃ ec, parts.2[k]? = some ec ∧ rsEncode data (b.total - b.data) = .ok ec ∧ ec.length = b.total - b.data
  | [], dcw, parts, _, hlen, h => by
    obtain rfl : dcw = [] := List.length_eq_zero_iff.1 hlen
    cases h
    simp
  | b :: bs, dcw, parts, hbs, hlen, h => by
    rw [List.map_cons, List.sum_cons] at hlen
    have hdrop : (dcw.drop b.data).length = (bs.map Block.data).sum := by
      rw [List.length_drop]
      omega
    obtain ⟨ec, hec, h⟩ := bind_eq_ok.1 h
    obtain ⟨rest, hrest, h⟩ := bind_eq_ok.1 h
    cases h
    obtain ⟨hflat, hlens, hcount, hparity⟩ := splitBlocks_spec (fun c hc => hbs c (List.mem_cons_of_mem b hc)) hdrop hrest
    refine ⟨?_, ?_, ?_, fun k c data hc hdata => ?_⟩
    · rw [List.flatten_cons, hflat, List.take_append_drop]
    · rw [List.map_cons, hlens, List.map_cons, List.length_take, Nat.min_eq_left (by omega)]
    · rw [List.length_cons, hcount, List.length_cons]
    · cases k with
      | zero =>
        obtain rfl : b = c := Option.some.inj hc
        obtain rfl : dcw.take b.data = data := Option.some.inj hdata
        obtain ⟨ec', hec', hlen'⟩ := rsEncode_ok (hbs b List.mem_cons_self).2 (dcw.take b.data)
        obtain rfl : ec = ec' := Except.ok.inj (hec.symm.trans hec')
        exact ⟨ec, rfl, hec, hlen'⟩
      | succ k => exact hparity k c data hc hdata

/-- Settles O34: the split of the codewords of a full buffer, in the order the parameter asks for. -/
theorem splitEncodesEveryBlockAndAssembles : Obligations.SplitEncodesEveryBlockAndAssembles := by
  intro s hs hver
  obtain ⟨h1, h2⟩ := id hver
  have hd := dataCw_eq_table s.ecl h1 h2
  refine ⟨_, _, _, hd, totalCw_eq_table s.ecl h1 h2, blocks_eq_table s.ecl h1 h2, fun hfull => ?_, fun hnot => ?_⟩
  · have hlen : (bytesOfBits s.bb).length = tableData s.ver.toNat s.ecl := by
      rw [bytesOfBits_length]
      omega
    have hbs := tableBlocks_ec_le s.ecl s.ver.toNat h2
    obtain ⟨parts, hparts, htotal⟩ := splitBlocks_ok hbs hlen
    obtain ⟨hflat, hlens, hcount, hparity⟩ := splitBlocks_spec hbs hlen hparts
    have hcw : finalCodewords s.cfg s.bb s.ver.toNat s.ecl = .ok (assemble s.cfg.interleave parts.1 parts.2) := by
      rw [finalCodewords, blocks_eq_table s.ecl h1 h2, ok_bind, hparts, ok_bind, pure_eq_ok]
    refine ⟨parts.1, parts.2, _, exec_split_of_finalCodewords hs hver.ne_zero hd hfull hcw, hflat, hlens, hcount, hparity, rfl,
      (assemble_perm _ _ _).length_eq.trans htotal, fun hseq => ?_⟩
    rw [hseq, ← hlen, ← hflat]
    exact List.take_left' rfl
  · have hcheck : refuseIf (s.bb.length ≠ 8 * tableData s.ver.toNat s.ecl) .illegalCommand = .error .illegalCommand :=
      refuseIf_eq_error.2 ⟨rfl, hnot⟩
    rw [exec_split, requireVersion_eq_ok (u := ()) |>.2 hver.ne_zero, ok_bind, hd, ok_bind, hcheck, error_bind, command_error hs,
      raise_of_recoverable rfl]

end Sys2Proof.Machine

/-! SUPPORT. The four penalty rules over the lines of a grid (47_mask_eval.md section 2), and their bound. -/

namespace Sys2Proof.Machine

/-! ## Runs -/

/-- A run that ends where the next module differs scores once, with what stood before it. -/
theorem runScoreFrom_replicate (b : Bool) {rest : List Bool} (h : rest.head? ≠ some b) : ∀ (len before : Nat),
    runScoreFrom b before (List.replicate len b ++ rest) = runPoints (before + len) + runScore rest
  | 0, before => by
    cases rest with
    | nil => rfl
    | cons x xs =>
      have hx : x ≠ b := fun hx => h (congrArg some hx)
      rw [List.replicate_zero, List.nil_append, runScoreFrom, if_neg hx, Nat.add_zero, runScore]
  | len + 1, before => by
    rw [List.replicate_succ, List.cons_append, runScoreFrom, if_pos rfl, runScoreFrom_replicate b h, Nat.add_right_comm,
      Nat.add_assoc]

theorem runPoints_eq (len : Nat) : runPoints len = if 5 ≤ len then len - 2 else 0 := by
  unfold runPoints
  split <;> omega

/-- Settles O47: the first module opens the run, the others lengthen it. -/
theorem runScoreCountsEveryMaximalRunOnce : Obligations.RunScoreCountsEveryMaximalRunOnce := by
  refine ⟨rfl, fun b len rest hlen hrest => ?_⟩
  obtain ⟨len, rfl⟩ := Nat.exists_eq_add_of_le' hlen
  rw [List.replicate_succ, List.cons_append, runScore, runScoreFrom_replicate b hrest, runPoints_eq, Nat.add_comm 1 len]

/-! ## Windows and mimics -/

/-- The windows of identical cells between two lines, over the first `m` columns. -/
def windowsBetween (m : Nat) (a b : List Bool) : Nat :=
  ((List.range m).filter (fun c => a.getD c false == a.getD (c + 1) false && a.getD c false == b.getD c false &&
    a.getD c false == b.getD (c + 1) false)).length

/-- Counting over the indices below `m + 1` is counting the first one and the others from it on. -/
theorem length_filter_range_succ (m : Nat) (p : Nat → Bool) :
    ((List.range (m + 1)).filter p).length = (if p 0 then 1 else 0) + ((List.range m).filter (fun i => p (i + 1))).length := by
  rw [List.range_succ_eq_map, ← List.countP_eq_length_filter, List.countP_cons, List.countP_map, List.countP_eq_length_filter,
    Nat.add_comm]
  rfl

theorem blockCount_eq_windowsBetween : ∀ {m : Nat} {a b : List Bool}, a.length = m + 1 → b.length = m + 1 →
    blockCount a b = windowsBetween m a b
  | 0, [_], [_], _, _ => rfl
  | m + 1, a :: a' :: as, b :: b' :: bs, ha, hb => by
    rw [blockCount, blockCount_eq_windowsBetween (m := m) (by simpa using ha) (by simpa using hb), windowsBetween, windowsBetween,
      length_filter_range_succ]
    simp [and_assoc]

theorem blockCounts_eq_sum {m : Nat} : ∀ {rows : List (List Bool)}, (∀ cells ∈ rows, cells.length = m + 1) →
    blockCounts rows =
      ((List.range (rows.length - 1)).map (fun r => windowsBetween m (rows.getD r []) (rows.getD (r + 1) []))).sum
  | [], _ => rfl
  | [_], _ => rfl
  | a :: b :: rest, h => by
    have hwindow := blockCount_eq_windowsBetween (h a (by simp)) (h b (by simp))
    have hlen : (a :: b :: rest).length - 1 = rest.length + 1 := rfl
    have hlen' : (b :: rest).length - 1 = rest.length := rfl
    rw [blockCounts, hwindow, blockCounts_eq_sum fun cells hc => h cells (List.mem_cons_of_mem _ hc), hlen, hlen',
      List.range_succ_eq_map, List.map_cons, List.sum_cons, List.map_map]
    rfl

theorem isPrefixOf_eq_take (cells : List Bool) : finderMimic.isPrefixOf cells = (cells.take 7 == finderMimic) := by
  rw [Bool.eq_iff_iff, List.isPrefixOf_iff_prefix, List.prefix_iff_eq_take, beq_iff_eq, eq_comm]
  rfl

theorem patCount_eq_mimicStarts : ∀ cells : List Bool, patCount cells = mimicStarts cells
  | [] => rfl
  | x :: xs => by
    rw [patCount, patCount_eq_mimicStarts xs, isPrefixOf_eq_take, mimicStarts, mimicStarts, List.length_cons,
      length_filter_range_succ]
    rfl

/-- Settles O48, line by line. -/
theorem blocksAndMimicsAreCountedAtEveryPosition : Obligations.BlocksAndMimicsAreCountedAtEveryPosition := by
  refine ⟨fun n rows hn hrows => ?_, patCount_eq_mimicStarts⟩
  cases n with
  | zero =>
    obtain rfl := List.length_eq_zero_iff.1 hn
    rfl
  | succ m =>
    rw [penB, blockCounts_eq_sum hrows, hn]
    rfl

/-! ## The lines of a square grid -/

theorem boolRows_eq_rowLine {n : Nat} {g : Grid} (h : Square n g) : boolRows g = (List.range n).map (rowLine n g) := by
  obtain ⟨hn, hcells⟩ := h
  refine List.ext_getElem (by simp [boolRows, hn]) fun r hr _ => ?_
  have hr' : r < g.length := by simpa [boolRows] using hr
  have hlen := hcells g[r] (List.getElem_mem hr')
  refine List.ext_getElem (by simp [boolRows, hlen]) fun c hc _ => ?_
  have hc' : c < g[r].length := by simpa [boolRows] using hc
  simp [boolRows, rowLine, getCell, isDark, hr', hc', Bool.beq_eq_decide_eq]

theorem columnOf_eq_columnLine {n c : Nat} {g : Grid} (h : Square n g) (hc : c < n) :
    columnOf (boolRows g) c = columnLine n g c := by
  rw [boolRows_eq_rowLine h, columnOf, List.map_map, columnLine]
  refine List.map_congr_left fun r _ => ?_
  rw [Function.comp_apply, List.getD, rowLine_getElem? g r hc, Option.getD_some]

theorem columnsOf_eq_columnLine {n : Nat} {g : Grid} (h : Square n g) :
    columnsOf n (boolRows g) = (List.range n).map (columnLine n g) :=
  List.map_congr_left fun _ hc => columnOf_eq_columnLine h (List.mem_range.1 hc)

/-! ## The bound -/

theorem sum_map_le {α : Type} {f : α → Nat} {bound : Nat} : ∀ {l : List α}, (∀ x ∈ l, f x ≤ bound) →
    (l.map f).sum ≤ l.length * bound
  | [], _ => Nat.zero_le _
  | x :: l, h => by
    have := h x List.mem_cons_self
    have := sum_map_le fun y hy => h y (List.mem_cons_of_mem x hy)
    rw [List.map_cons, List.sum_cons, List.length_cons, Nat.succ_mul]
    omega

theorem runScoreFrom_le (b : Bool) (before : Nat) (cells : List Bool) : runScoreFrom b before cells ≤ before + cells.length := by
  induction cells generalizing b before with
  | nil =>
    rw [runScoreFrom, runPoints_eq]
    split <;> omega
  | cons x xs ih =>
    rw [runScoreFrom, List.length_cons]
    split
    · exact (ih b (before + 1)).trans (by omega)
    · have := ih x 1
      rw [runPoints_eq]
      split <;> omega

theorem runScore_le (cells : List Bool) : runScore cells ≤ cells.length := by
  cases cells with
  | nil => exact Nat.le_refl _
  | cons x xs => exact (runScoreFrom_le x 1 xs).trans (by rw [List.length_cons]; omega)

/-- A mimic takes seven modules, so a line of `n` has at most `n - 6` start positions. -/
theorem patCount_le : ∀ cells : List Bool, patCount cells ≤ cells.length - 6
  | [] => Nat.le_refl _
  | x :: xs => by
    have ih := patCount_le xs
    rw [patCount]
    split
    · rename_i hmimic
      have hlen : 7 ≤ (x :: xs).length := (List.isPrefixOf_iff_prefix.1 hmimic).length_le
      rw [List.length_cons] at hlen ⊢
      omega
    · rw [List.length_cons]
      omega

theorem windowsBetween_le (m : Nat) (a b : List Bool) : windowsBetween m a b ≤ m :=
  (List.length_filter_le _ _).trans (List.length_range).le

section
variable {n : Nat} {rows cols : List (List Bool)} (hrows : rows.length = n) (hrow : ∀ cells ∈ rows, cells.length = n)
include hrows hrow

theorem penB_le : penB rows ≤ 3 * (n * n) := by
  cases n with
  | zero =>
    obtain rfl := List.length_eq_zero_iff.1 hrows
    exact Nat.le_refl _
  | succ m =>
    have hsum := sum_map_le (bound := m) (fun r (_ : r ∈ List.range (rows.length - 1)) =>
      windowsBetween_le m (rows.getD r []) (rows.getD (r + 1) []))
    rw [List.length_range, hrows, Nat.add_sub_cancel] at hsum
    have hsquare : m * m ≤ (m + 1) * (m + 1) := Nat.mul_le_mul (Nat.le_succ m) (Nat.le_succ m)
    rw [penB, blockCounts_eq_sum hrow, hrows, Nat.add_sub_cancel]
    omega

theorem darkCount_le : darkCount rows ≤ n * n :=
  hrows ▸ sum_map_le fun cells hc => hrows ▸ hrow cells hc ▸ List.count_le_length

theorem penD_le : penD n rows ≤ 100 := by
  have hdark := darkCount_le hrows hrow
  have habs : absDiff (100 * darkCount rows) (50 * (n * n)) ≤ 5 * (n * n) * 10 := by
    unfold absDiff
    omega
  have hdiv : absDiff (100 * darkCount rows) (50 * (n * n)) / (5 * (n * n)) ≤ 10 := Nat.div_le_of_le_mul habs
  rw [penD]
  omega

variable (hcols : cols.length = n) (hcol : ∀ cells ∈ cols, cells.length = n)
include hcols hcol

theorem penA_le : penA rows cols ≤ 2 * (n * n) := by
  have h1 := sum_map_le fun cells hc => hrow cells hc ▸ runScore_le cells
  have h2 := sum_map_le fun cells hc => hcol cells hc ▸ runScore_le cells
  rw [hrows] at h1
  rw [hcols] at h2
  rw [penA]
  omega

theorem penC_le : penC rows cols ≤ 80 * (n * (n - 6)) := by
  have h1 := sum_map_le fun cells hc => hrow cells hc ▸ patCount_le cells
  have h2 := sum_map_le fun cells hc => hcol cells hc ▸ patCount_le cells
  rw [hrows] at h1
  rw [hcols] at h2
  rw [penC]
  omega

end

/-- The largest symbol has 177 modules a side (47_mask_eval.md section 3). -/
theorem penalty_lt {n : Nat} {g : Grid} (h : Square n g) (hn : n ≤ 177) : penalty n g < 2600000 := by
  have hrows : (boolRows g).length = n := by simp [boolRows_eq_rowLine h]
  have hcols : (columnsOf n (boolRows g)).length = n := by simp [columnsOf]
  have hrow : ∀ cells ∈ boolRows g, cells.length = n := by simp [boolRows_eq_rowLine h]
  have hcol : ∀ cells ∈ columnsOf n (boolRows g), cells.length = n := by simp [columnsOf_eq_columnLine h]
  have hA := penA_le hrows hrow hcols hcol
  have hB := penB_le hrows hrow
  have hC := penC_le hrows hrow hcols hcol
  have hD := penD_le hrows hrow
  have hsquare : n * n ≤ 177 * 177 := Nat.mul_le_mul hn hn
  have hmimic : n * (n - 6) ≤ 177 * 171 := Nat.mul_le_mul hn (by omega)
  rw [penalty]
  omega

/-! ## `MXPEN` -/

theorem exec_mxpen_of_stage {s : State} (hs : Accepting s) (hstage : s.stage = .mapped ∨ s.stage = .final) :
    exec .mxpen s = .next { s with res := resOfNat (penalty s.n.toNat s.mx), err := .ok } := by
  have hmem : s.stage ∈ [Stage.mapped, .final] := by simpa using hstage
  simp only [exec, execMxpen, requireStage_of_mem hmem, ok_bind, pure_eq_ok, command_ok hs, succeed, setRes]

theorem resOfNat_toNat {v : Nat} (h : v < 2600000) : (resOfNat v).toNat = v := Nat.mod_eq_of_lt (by omega)

/-- Settles O50: the rows and columns the rules read are those of the grid, and the sum is small enough for `RES`. -/
theorem mxpenReportsTheSumOfTheFourRules : Obligations.MxpenReportsTheSumOfTheFourRules := by
  intro s hs hcore hstage
  have hne : s.stage ≠ .none := fun h0 => by simp [h0] at hstage
  obtain ⟨-, h40, hn⟩ := hcore.side hne
  have hsquare := hcore.shape.square
  have hlt := penalty_lt hsquare (by omega)
  have hrows := boolRows_eq_rowLine hsquare
  have hcols := columnsOf_eq_columnLine hsquare
  refine ⟨_, exec_mxpen_of_stage hs hstage, by rwa [resOfNat_toNat hlt], by rw [resOfNat_toNat hlt, penalty], hrows,
    hcols, ?_, ?_⟩
  · rw [hcols, hrows, penA, List.map_map, List.map_map]
    rfl
  · rw [hcols, hrows, penC, List.map_map, List.map_map]
    rfl

end Sys2Proof.Machine

/-! SUPPORT. The search of the best mask and the whole pipeline as sequences of commands (47_mask_eval.md section 3,
49_generate.md). -/

namespace Sys2Proof.Machine

/-! ## The best mask -/

/-- A candidate with a lower score, or the same score and no larger index (47_mask_eval.md R183). -/
def Beats (a b : BitVec 3 × Nat) : Prop := a.2 < b.2 ∨ (a.2 = b.2 ∧ a.1.toNat ≤ b.1.toNat)

theorem Beats.refl (a : BitVec 3 × Nat) : Beats a a := .inr ⟨rfl, Nat.le_refl _⟩

theorem Beats.trans {a b c : BitVec 3 × Nat} (h : Beats a b) (h' : Beats b c) : Beats a c := by
  unfold Beats at *
  omega

/-- One comparison of the search, of a candidate with a later one. -/
theorem beats_of_lt {a b : BitVec 3 × Nat} (h : a.1.toNat < b.1.toNat) :
    Beats (if b.2 < a.2 then b else a) a ∧ Beats (if b.2 < a.2 then b else a) b := by
  split
  · exact ⟨.inl ‹_›, .refl b⟩
  · refine ⟨.refl a, ?_⟩
    unfold Beats
    omega

theorem pickBest_mem : ∀ (best : BitVec 3 × Nat) (cands : List (BitVec 3 × Nat)), pickBest best cands ∈ best :: cands
  | best, [] => List.mem_singleton_self best
  | best, d :: cands => by
    rw [pickBest]
    obtain h | h := List.mem_cons.1 (pickBest_mem (if d.2 < best.2 then d else best) cands)
    · rw [h]
      split <;> simp
    · exact List.mem_cons_of_mem _ (List.mem_cons_of_mem _ h)

/-- Over candidates in the order of their indices, the search ends with one that beats all. -/
theorem pickBest_beats : ∀ {best : BitVec 3 × Nat} {cands : List (BitVec 3 × Nat)},
    (best :: cands).Pairwise (fun a b => a.1.toNat < b.1.toNat) → ∀ c ∈ best :: cands, Beats (pickBest best cands) c
  | best, [], _, c, hc => List.mem_singleton.1 hc ▸ .refl best
  | best, d :: cands, hsorted, c, hc => by
    obtain ⟨hbest, hrest⟩ := List.pairwise_cons.1 hsorted
    obtain ⟨hd, hcands⟩ := List.pairwise_cons.1 hrest
    obtain ⟨hwin, hwin'⟩ := beats_of_lt (hbest d List.mem_cons_self)
    have hnext : ((if d.2 < best.2 then d else best) :: cands).Pairwise (fun a b => a.1.toNat < b.1.toNat) := by
      split
      · exact hrest
      · exact List.pairwise_cons.2 ⟨fun e he => hbest e (List.mem_cons_of_mem _ he), hcands⟩
    have hbeats := pickBest_beats hnext
    obtain rfl | hc := List.mem_cons.1 hc
    · exact (hbeats _ List.mem_cons_self).trans hwin
    · obtain rfl | hc := List.mem_cons.1 hc
      · exact (hbeats _ List.mem_cons_self).trans hwin'
      · exact hbeats c (List.mem_cons_of_mem _ hc)

section
variable (n v : Nat) (pos : List Nat) (cw : List Byte)

theorem mem_candidates (k : BitVec 3) :
    (k, trialScore n v pos cw k) ∈ (0#3 :: laterMasks).map (fun k => (k, trialScore n v pos cw k)) :=
  List.mem_map_of_mem (by revert k; decide)

theorem bestMask_score : (bestMask n v pos cw).2 = trialScore n v pos cw (bestMask n v pos cw).1 := by
  have hmem : bestMask n v pos cw ∈ (0#3 :: laterMasks).map (fun k => (k, trialScore n v pos cw k)) := pickBest_mem _ _
  obtain ⟨k, -, hk⟩ := List.mem_map.1 hmem
  rw [← hk]

theorem bestMask_beats (k : BitVec 3) : Beats (bestMask n v pos cw) (k, trialScore n v pos cw k) := by
  have hmasks : (0#3 :: laterMasks).Pairwise (fun a b => a.toNat < b.toNat) := by decide
  have hsorted : ((0#3 :: laterMasks).map (fun k => (k, trialScore n v pos cw k))).Pairwise
      (fun a b => a.1.toNat < b.1.toNat) := List.pairwise_map.2 hmasks
  exact pickBest_beats hsorted _ (mem_candidates n v pos cw k)

theorem trialScore_bestMask_le (k : BitVec 3) :
    trialScore n v pos cw (bestMask n v pos cw).1 ≤ trialScore n v pos cw k := by
  have h := bestMask_beats n v pos cw k
  rw [Beats, bestMask_score] at h
  obtain h | ⟨h, -⟩ := h
  · exact h.le
  · exact h.le

theorem trialScore_bestMask_lt {k : BitVec 3} (hk : k.toNat < (bestMask n v pos cw).1.toNat) :
    trialScore n v pos cw (bestMask n v pos cw).1 < trialScore n v pos cw k := by
  have h := bestMask_beats n v pos cw k
  rw [Beats, bestMask_score] at h
  obtain h | ⟨-, h⟩ := h
  · exact h
  · exact absurd hk (Nat.not_lt.2 h)

end

theorem trialScore_lt {v : Nat} (h : v ≤ 40) (pos : List Nat) (cw : List Byte) (k : BitVec 3) :
    trialScore (4 * v + 17) v pos cw k < 2600000 :=
  penalty_lt (buildTrial_square _ v pos cw k) (by omega)

/-- Settles O51: the search's winner beats every mask, and its score fits in `BESTPEN`. -/
theorem mxbestPicksTheLowestScoreAndSmallestIndex : Obligations.MxbestPicksTheLowestScoreAndSmallestIndex := by
  intro s hs hver
  obtain ⟨pos, hpos, hbest⟩ := runBestMask_ok hver.1 hver.2
  have hexec := exec_mxbest_of_runBestMask hs hver.ne_zero hbest
  simp only [moduleCount_toNat hver.2, bestMask_score] at hexec
  rw [moduleCount] at hexec
  exact ⟨pos, _, _, hpos, rfl, hexec, trialScore_bestMask_le _ _ pos s.cw, fun k hk => trialScore_bestMask_lt _ _ pos s.cw hk,
    resOfNat_toNat (trialScore_lt hver.2 pos s.cw _)⟩

/-! ## The five matrix commands -/

theorem ofNat_setWidth_toNat (k : BitVec 3) : BitVec.ofNat 3 (k.setWidth 8).toNat = k := by
  revert k
  decide

theorem setWidth_toNat_le (k : BitVec 3) : (k.setWidth 8).toNat ≤ 7 := by
  revert k
  decide

/-- The state that `MXRST` leaves. -/
def emptyState (s : State) : State :=
  { s with n := moduleCount s.ver, mx := unsetGrid (4 * s.ver.toNat + 17), stage := .empty, err := .ok }

/-- The state that `MXPAT` leaves after it. -/
def patternsState (pos : List Nat) (s : State) : State :=
  { s with n := moduleCount s.ver, mx := placePatterns (4 * s.ver.toNat + 17) pos (unsetGrid (4 * s.ver.toNat + 17)),
           stage := .patterns, err := .ok }

/-- The state that `MXRSV` leaves after them. -/
def reservedState (pos : List Nat) (s : State) : State :=
  { s with n := moduleCount s.ver, mx := reservedGrid (4 * s.ver.toNat + 17) s.ver.toNat pos, stage := .reserved, err := .ok }

/-- The state that `MXMAP k` leaves after them. -/
def trialState (pos : List Nat) (k : BitVec 3) (s : State) : State :=
  { s with n := moduleCount s.ver, mx := buildTrial (4 * s.ver.toNat + 17) s.ver.toNat pos s.cw k, mask := k, stage := .mapped,
           err := .ok }

section
variable {s : State} {pos : List Nat} (hs : Accepting s) (hver : VersionSelected s) (hpos : alignPositions s.ver.toNat = .ok pos)
include hs hver

include hpos in
theorem exec_mxpat_emptyState : exec .mxpat (emptyState s) = .next (patternsState pos s) := by
  rw [exec_mxpat_of_stage (s := emptyState s) hs rfl hpos]
  simp only [emptyState, patternsState, moduleCount_toNat hver.2]

theorem exec_mxrsv_patternsState : exec .mxrsv (patternsState pos s) = .next (reservedState pos s) := by
  rw [exec_mxrsv_of_stage (s := patternsState pos s) hs rfl]
  simp only [patternsState, reservedState, reservedGrid, moduleCount_toNat hver.2]

theorem exec_mxmap_reservedState (k : BitVec 3) :
    exec (.mxmap (k.setWidth 8)) (reservedState pos s) = .next (trialState pos k s) := by
  rw [exec_mxmap_of_stage (s := reservedState pos s) hs rfl (setWidth_toNat_le k)]
  simp only [reservedState, trialState, ofNat_setWidth_toNat, moduleCount_toNat hver.2, buildTrial]

theorem exec_mxpen_trialState (k : BitVec 3) : exec .mxpen (trialState pos k s) = .next { trialState pos k s with
    res := resOfNat (trialScore (4 * s.ver.toNat + 17) s.ver.toNat pos s.cw k) } := by
  rw [exec_mxpen_of_stage (s := trialState pos k s) hs (.inl rfl)]
  simp only [trialState, moduleCount_toNat hver.2, trialScore]

theorem exec_mxfin_trialState (k : BitVec 3) : exec .mxfin (trialState pos k s) = .next { trialState pos k s with
    mx := buildFinal (4 * s.ver.toNat + 17) s.ver pos s.cw s.ecl k, stage := .final } := by
  rw [exec_mxfin_of_stage (s := trialState pos k s) hs rfl]
  simp only [trialState, moduleCount_toNat hver.2, buildFinal]

end

/-- Settles O52: each command of the sequence takes the stage before it, and the last grid is the one the search builds. -/
theorem mxbestEqualsTheFiveMatrixCommands : Obligations.MxbestEqualsTheFiveMatrixCommands := by
  intro s hs hver
  have hne := hver.ne_zero
  obtain ⟨pos, hpos, hbest⟩ := runBestMask_ok hver.1 hver.2
  have hmxbest := exec_mxbest_of_runBestMask hs hne hbest
  simp only [moduleCount_toNat hver.2] at hmxbest
  refine ⟨emptyState s, patternsState pos s, reservedState pos s, _, pos, exec_mxrst_of_version hs hver,
    exec_mxpat_emptyState hs hver hpos, exec_mxrsv_patternsState hs hver, rfl, rfl, rfl, hmxbest, rfl, hpos,
    fun k => ⟨_, exec_mxmap_reservedState hs hver k, rfl, exec_mxpen_trialState hs hver k⟩, _,
    exec_mxmap_reservedState hs hver _, ?_⟩
  rw [exec_mxfin_trialState hs hver]
  simp only [trialState]

/-! ## `GEN` -/

/-- Settles O54: the choice, the bits and the codewords are functions of the payload, the level and the parameters, and the search
reads nothing but them. -/
theorem genReadsThePayloadAndTheParameterAlone : Obligations.GenReadsThePayloadAndTheParameterAlone := by
  intro lvl s s' hs hs' hpayload hcfg hfits
  obtain ⟨ver, bits, cw, h1, h2, hselect, hencode, -, hcw, -⟩ := gen_parts_ok hfits
  have hround : BitVec.ofNat 6 ver.toNat = ver := by simp
  have hgen := exec_gen lvl s
  have hgen' := exec_gen lvl s'
  have hselect' : selectVersion s'.payload.length lvl = .ok ver.toNat := hpayload ▸ hselect
  have hencode' : encodeData s'.payload ver.toNat lvl = .ok bits := hpayload ▸ hencode
  have hcw' : finalCodewords s'.cfg bits ver.toNat lvl = .ok cw := hcfg ▸ hcw
  obtain ⟨pos, hpos⟩ := alignPositions_ok h1 h2
  rw [hselect, ok_bind, hencode, ok_bind, hcw, ok_bind, hround, runBestMask, hpos, ok_bind, pure_eq_ok, command_ok hs] at hgen
  rw [hselect', ok_bind, hencode', ok_bind, hcw', ok_bind, hround, runBestMask, hpos, ok_bind, pure_eq_ok, command_ok hs'] at hgen'
  exact ⟨_, hgen, by rw [hgen']; simp only [succeed], by simp only [succeed]⟩

end Sys2Proof.Machine
